-- ==== Sys2Proof/Word.lean ====
section
/-! DEFINITION. The two value types of the machine (10_state.md R10): a Byte of 8 bits and a Word of 16 bits.
All arithmetic on them wraps, which is `BitVec` arithmetic. There is no other value type. -/

namespace Sys2Proof

/-- An unsigned integer of 8 bits (R10). -/
abbrev Byte := BitVec 8

/-- An unsigned integer of 16 bits (R10): a register, an address, an immediate. -/
abbrev Word := BitVec 16

end Sys2Proof
end

