-- ==== Sys2Proof/Config.lean ====
section
/-! DEFINITION. The named parameters of the machine (00_scope.md R5) that are numbers, with the defaults the spec
chooses. They are not state (10_state.md R34): every shared operation takes a `Config` as an argument. The Instruction
Table, the other parameter, is a list of declared entries (`Itab`, Syntax.lean); the power-on contents are inputs of `boot`
(Machine/Boot.lean). REFRESH_PERIOD has no field: "no rule depends on it" (R5). -/

namespace Sys2Proof

/-- The parameters of 00_scope.md R5: region bounds are inclusive addresses, `videoBase` is the first of the nine
addresses of the video command port, the raster is measured in cells. -/
structure Config where
  /-- RESET_VECTOR: the value `reset()` copies into PC (R364, D5). -/
  resetVector : Word
  /-- ROM_LO. -/
  romLo : Nat
  /-- ROM_HI. -/
  romHi : Nat
  /-- CHAR_LO. -/
  charLo : Nat
  /-- CHAR_HI. -/
  charHi : Nat
  /-- CART_LO. -/
  cartLo : Nat
  /-- CART_HI. -/
  cartHi : Nat
  /-- CART_PRESENT: whether a cartridge image is installed at setup (R55). -/
  cartPresent : Bool
  /-- VIDEO_BASE. -/
  videoBase : Nat
  /-- RASTER_W. -/
  rasterW : Nat
  /-- RASTER_H. -/
  rasterH : Nat
deriving DecidableEq, Repr

/-- The reference machine: every parameter at the default of 00_scope.md R5 (D5, D6, D8; log 1). -/
def Config.reference : Config where
  resetVector := 0xF000#16
  romLo := 0xF000
  romHi := 0xFFFF
  charLo := 0xE800
  charHi := 0xEFFF
  cartLo := 0x8000
  cartHi := 0xBFFF
  cartPresent := false
  videoBase := 0xE000
  rasterW := 128
  rasterH := 64

end Sys2Proof
end

