-- ==== Sys2Proof/Syntax.lean ====
section
/-! DEFINITION. The syntax of the instruction set: mnemonics, addressing modes, descriptors, the shape of an Instruction
Table, and `Instr`, one constructor for each of the 124 rows of the reference table (30_encoding.md R97). -/

namespace Sys2Proof

/-- The addressing-mode tags of a descriptor (30_encoding.md R93, D4). -/
inductive AddrMode where
  /-- `IMP`: no operand byte (R122). -/
  | imp
  /-- `IMM1`: one immediate byte (R116). -/
  | imm1
  /-- `IMM2`: two immediate bytes, the high one first (R117). -/
  | imm2
  /-- `ABS`: a 16-bit address (R118). -/
  | abs
  /-- `ABSI`: a 16-bit address plus `I` (R119). -/
  | absi
  /-- `ABSJ`: a 16-bit address plus `J` (R120). -/
  | absj
  /-- `IND`: the address of a 16-bit address (R121). -/
  | ind
deriving DecidableEq, Repr

/-- The 82 mnemonics of the reference table (R97), in the order of their opcodes. -/
inductive Mnemonic where
  | nop | halt | clc | sec | clo | cld | sed | cli | sei | cls | lda | ldah | ldal | ldb | ldbh | ldbl | ldi
  | ldj | ldsp | sta | stah | stal | stb | stbh | stbl | sti | stj | tab | tba | tai | tia | taj | tja | tad
  | tda | tasp | tspa | tasr | tsra | add | sub | and | or | addh | addl | subh | subl | andl | orl | addb
  | subb | andb | orb | addbh | addbl | subbh | subbl | andbl | orbl | ini | dei | inj | dej | psha | popa
  | pshb | popb | pshsr | popsr | jmp | jeq | jne | jcs | jcc | jns | jnc | jos | joc | jlt | jge | call | ret
deriving DecidableEq, Repr

/-- The immutable record that lookup returns (R93). -/
structure Descriptor where
  mnemonic : Mnemonic
  mode : AddrMode
  operandByteCount : Nat
  needsPrivilege : Bool
deriving DecidableEq, Repr

/-- The mode of an entry of the declarative instruction list (R93). -/
inductive DeclaredMode where
  /-- "immediate" without a width: lookup takes the width from the declared byte count. -/
  | immediate
  /-- One of the tags a descriptor carries. -/
  | tagged (mode : AddrMode)
deriving DecidableEq, Repr

/-- An entry of the declarative instruction list: a descriptor whose mode may lack its width (R93). -/
structure Declaration where
  mnemonic : Mnemonic
  mode : DeclaredMode
  operandByteCount : Nat
  needsPrivilege : Bool
deriving DecidableEq, Repr

/-- An Instruction Table as it is declared (R93, R94): opcodes with their entries. `Itab.lookup` (Decode.lean) reads it as
the partial function to descriptors; `Itab.wellFormed` (WellFormed.lean) says which lists are tables. -/
abbrev Itab := List (Byte × Declaration)

/-- The instructions of the reference table, one constructor per row (mnemonic and mode), in opcode order. An operand is
the immediate (`imm`), the absolute address (`addr`), the base of an indexed address (`base`) or the address of a pointer
(`ptr`); every value of it is legal (R98). -/
inductive Instr where
  | nop
  | halt
  | clc
  | sec
  | clo
  | cld
  | sed
  | cli
  | sei
  | cls
  | ldaImm2 (imm : Word)
  | ldaAbs (addr : Word)
  | ldaAbsi (base : Word)
  | ldaAbsj (base : Word)
  | ldaInd (ptr : Word)
  | ldahImm1 (imm : Byte)
  | ldahAbs (addr : Word)
  | ldalImm1 (imm : Byte)
  | ldalAbs (addr : Word)
  | ldalAbsi (base : Word)
  | ldalAbsj (base : Word)
  | ldalInd (ptr : Word)
  | ldbImm2 (imm : Word)
  | ldbAbs (addr : Word)
  | ldbhImm1 (imm : Byte)
  | ldbhAbs (addr : Word)
  | ldblImm1 (imm : Byte)
  | ldblAbs (addr : Word)
  | ldiImm2 (imm : Word)
  | ldiAbs (addr : Word)
  | ldjImm2 (imm : Word)
  | ldjAbs (addr : Word)
  | ldspImm2 (imm : Word)
  | ldspAbs (addr : Word)
  | staAbs (addr : Word)
  | staAbsi (base : Word)
  | staAbsj (base : Word)
  | staInd (ptr : Word)
  | stahAbs (addr : Word)
  | stalAbs (addr : Word)
  | stalAbsi (base : Word)
  | stalAbsj (base : Word)
  | stalInd (ptr : Word)
  | stbAbs (addr : Word)
  | stbhAbs (addr : Word)
  | stblAbs (addr : Word)
  | stiAbs (addr : Word)
  | stjAbs (addr : Word)
  | tab
  | tba
  | tai
  | tia
  | taj
  | tja
  | tad
  | tda
  | tasp
  | tspa
  | tasr
  | tsra
  | addImm2 (imm : Word)
  | addAbs (addr : Word)
  | subImm2 (imm : Word)
  | subAbs (addr : Word)
  | andImm2 (imm : Word)
  | andAbs (addr : Word)
  | orImm2 (imm : Word)
  | orAbs (addr : Word)
  | addhImm1 (imm : Byte)
  | addhAbs (addr : Word)
  | addlImm1 (imm : Byte)
  | addlAbs (addr : Word)
  | subhImm1 (imm : Byte)
  | subhAbs (addr : Word)
  | sublImm1 (imm : Byte)
  | sublAbs (addr : Word)
  | andlImm1 (imm : Byte)
  | andlAbs (addr : Word)
  | orlImm1 (imm : Byte)
  | orlAbs (addr : Word)
  | addbImm2 (imm : Word)
  | addbAbs (addr : Word)
  | subbImm2 (imm : Word)
  | subbAbs (addr : Word)
  | andbImm2 (imm : Word)
  | andbAbs (addr : Word)
  | orbImm2 (imm : Word)
  | orbAbs (addr : Word)
  | addbhImm1 (imm : Byte)
  | addbhAbs (addr : Word)
  | addblImm1 (imm : Byte)
  | addblAbs (addr : Word)
  | subbhImm1 (imm : Byte)
  | subbhAbs (addr : Word)
  | subblImm1 (imm : Byte)
  | subblAbs (addr : Word)
  | andblImm1 (imm : Byte)
  | andblAbs (addr : Word)
  | orblImm1 (imm : Byte)
  | orblAbs (addr : Word)
  | ini
  | dei
  | inj
  | dej
  | psha
  | popa
  | pshb
  | popb
  | pshsr
  | popsr
  | jmpAbs (addr : Word)
  | jmpInd (ptr : Word)
  | jeqAbs (addr : Word)
  | jneAbs (addr : Word)
  | jcsAbs (addr : Word)
  | jccAbs (addr : Word)
  | jnsAbs (addr : Word)
  | jncAbs (addr : Word)
  | josAbs (addr : Word)
  | jocAbs (addr : Word)
  | jltAbs (addr : Word)
  | jgeAbs (addr : Word)
  | callAbs (addr : Word)
  | ret
deriving DecidableEq, Repr

end Sys2Proof
end

