-- ==== Sys2Proof/WellFormed.lean ====
section
/-! DEFINITION. The checks the spec asks of what a user supplies: an Instruction Table (30_encoding.md R94) and a
configuration (00_scope.md R5, 93_implementation_defined.md U23, U24). An `Instr` needs no check: its operands are typed
bytes and words, and "Operand bytes have no illegal values" (R98). -/

namespace Sys2Proof

/-- Which addressing modes a mnemonic may take in a table (40_step_and_addressing.md R125). -/
inductive Shape where
  /-- Only `IMP`. -/
  | implied
  /-- A load or arithmetic mnemonic with a 16-bit target: `IMM2` or a memory mode. -/
  | wide
  /-- A load or arithmetic mnemonic with an 8-bit target: `IMM1` or a memory mode. -/
  | narrow
  /-- A store: a memory mode. -/
  | store
  /-- A jump or `call`: a memory mode, which gives the target. -/
  | jump
deriving DecidableEq, Repr

/-- The shape of each mnemonic (R125; the target widths of 41_load_store.md and 43_alu.md). -/
def Mnemonic.shape : Mnemonic → Shape
  | .nop | .halt | .clc | .sec | .clo | .cld | .sed | .cli | .sei | .cls => .implied
  | .lda | .ldb | .ldi | .ldj | .ldsp => .wide
  | .ldah | .ldal | .ldbh | .ldbl => .narrow
  | .sta | .stah | .stal | .stb | .stbh | .stbl | .sti | .stj => .store
  | .tab | .tba | .tai | .tia | .taj | .tja | .tad | .tda | .tasp | .tspa | .tasr | .tsra => .implied
  | .add | .sub | .and | .or | .addb | .subb | .andb | .orb => .wide
  | .addh | .addl | .subh | .subl | .andl | .orl => .narrow
  | .addbh | .addbl | .subbh | .subbl | .andbl | .orbl => .narrow
  | .ini | .dei | .inj | .dej => .implied
  | .psha | .popa | .pshb | .popb | .pshsr | .popsr => .implied
  | .jmp | .jeq | .jne | .jcs | .jcc | .jns | .jnc | .jos | .joc | .jlt | .jge | .call => .jump
  | .ret => .implied

/-- `ABS`, `ABSI`, `ABSJ` or `IND`. -/
def AddrMode.isMemory : AddrMode → Bool
  | .abs | .absi | .absj | .ind => true
  | .imp | .imm1 | .imm2 => false

/-- Whether a mnemonic has a defined operation in a mode (R94 (d), R125). -/
def pairDefined (m : Mnemonic) (mode : AddrMode) : Bool :=
  match m.shape with
  | .implied => mode == .imp
  | .wide => mode == .imm2 || mode.isMemory
  | .narrow => mode == .imm1 || mode.isMemory
  | .store | .jump => mode.isMemory

/-- "the count agrees with the mode" (R94 (b)). -/
def countAgrees (mode : AddrMode) (count : Nat) : Bool :=
  match mode with
  | .imp => count == 0
  | .imm1 => count == 1
  | .imm2 | .abs | .absi | .absj | .ind => count == 2

/-- One descriptor meets R94 (b) and (d). -/
def Descriptor.wellFormed (d : Descriptor) : Bool :=
  countAgrees d.mode d.operandByteCount && pairDefined d.mnemonic d.mode

/-- One declared entry meets R94 (b) and (d): an untagged immediate declares one or two bytes, and the mnemonic takes an
immediate of that width; a tagged entry is checked as the descriptor it is (R93). -/
def Declaration.wellFormed (d : Declaration) : Bool :=
  match d.mode with
  | .immediate =>
    (d.operandByteCount == 1 && pairDefined d.mnemonic .imm1) || (d.operandByteCount == 2 && pairDefined d.mnemonic .imm2)
  | .tagged mode => countAgrees mode d.operandByteCount && pairDefined d.mnemonic mode

/-- Every constraint of R94 on a table: no opcode twice, each entry well-formed. -/
def Itab.wellFormed : Itab → Bool
  | [] => true
  | (op, d) :: rows => rows.all (fun r => r.1 != op) && d.wellFormed && Itab.wellFormed rows

/-- An inclusive range of addresses inside the 16-bit space. -/
def rangeFits (lo hi : Nat) : Bool := decide (lo ≤ hi) && decide (hi ≤ 0xFFFF)

/-- Two inclusive ranges have no address in common. -/
def rangesDisjoint (lo hi lo' hi' : Nat) : Bool := decide (hi < lo') || decide (hi' < lo)

/-- The last address of the video command port, `VIDEO_BASE+8` (R5). -/
def Config.videoLast (c : Config) : Nat := c.videoBase + 8

/-- Every constraint of R5 on the parameters: ranges inside the space and disjoint, raster sides in 1..256 (U24). -/
def Config.wellFormed (c : Config) : Bool :=
  rangeFits c.romLo c.romHi && rangeFits c.charLo c.charHi && rangeFits c.cartLo c.cartHi &&
  rangeFits c.videoBase c.videoLast &&
  rangesDisjoint c.romLo c.romHi c.charLo c.charHi && rangesDisjoint c.romLo c.romHi c.cartLo c.cartHi &&
  rangesDisjoint c.romLo c.romHi c.videoBase c.videoLast && rangesDisjoint c.charLo c.charHi c.cartLo c.cartHi &&
  rangesDisjoint c.charLo c.charHi c.videoBase c.videoLast &&
  rangesDisjoint c.cartLo c.cartHi c.videoBase c.videoLast &&
  decide (1 ≤ c.rasterW) && decide (c.rasterW ≤ 256) && decide (1 ≤ c.rasterH) && decide (c.rasterH ≤ 256)

end Sys2Proof
end

