-- ==== Sys2Proof/Decode.lean ====
section
/-! DEFINITION. Decoding and encoding (30_encoding.md): byte order helpers, the reference Instruction Table with the
instruction each row builds, `decode` over bytes, and `encode`, its inverse, written from the same table of the spec. -/

namespace Sys2Proof

/-- `v[15:8]` (R6). -/
def hiByte (w : Word) : Byte := w.extractLsb' 8 8

/-- `v[7:0]` (R6). -/
def loByte (w : Word) : Byte := w.extractLsb' 0 8

/-- `h:l`, the high byte in the more significant position (R6, R63). -/
def wordOf (h l : Byte) : Word := h ++ l

/-- The mnemonic exactly as the table spells it (R103). -/
def Mnemonic.text : Mnemonic → String
  | .nop => "nop"
  | .halt => "halt"
  | .clc => "clc"
  | .sec => "sec"
  | .clo => "clo"
  | .cld => "cld"
  | .sed => "sed"
  | .cli => "cli"
  | .sei => "sei"
  | .cls => "cls"
  | .lda => "lda"
  | .ldah => "ldah"
  | .ldal => "ldal"
  | .ldb => "ldb"
  | .ldbh => "ldbh"
  | .ldbl => "ldbl"
  | .ldi => "ldi"
  | .ldj => "ldj"
  | .ldsp => "ldsp"
  | .sta => "sta"
  | .stah => "stah"
  | .stal => "stal"
  | .stb => "stb"
  | .stbh => "stbh"
  | .stbl => "stbl"
  | .sti => "sti"
  | .stj => "stj"
  | .tab => "tab"
  | .tba => "tba"
  | .tai => "tai"
  | .tia => "tia"
  | .taj => "taj"
  | .tja => "tja"
  | .tad => "tad"
  | .tda => "tda"
  | .tasp => "tasp"
  | .tspa => "tspa"
  | .tasr => "tasr"
  | .tsra => "tsra"
  | .add => "add"
  | .sub => "sub"
  | .and => "and"
  | .or => "or"
  | .addh => "addh"
  | .addl => "addl"
  | .subh => "subh"
  | .subl => "subl"
  | .andl => "andl"
  | .orl => "orl"
  | .addb => "addb"
  | .subb => "subb"
  | .andb => "andb"
  | .orb => "orb"
  | .addbh => "addbh"
  | .addbl => "addbl"
  | .subbh => "subbh"
  | .subbl => "subbl"
  | .andbl => "andbl"
  | .orbl => "orbl"
  | .ini => "ini"
  | .dei => "dei"
  | .inj => "inj"
  | .dej => "dej"
  | .psha => "psha"
  | .popa => "popa"
  | .pshb => "pshb"
  | .popb => "popb"
  | .pshsr => "pshsr"
  | .popsr => "popsr"
  | .jmp => "jmp"
  | .jeq => "jeq"
  | .jne => "jne"
  | .jcs => "jcs"
  | .jcc => "jcc"
  | .jns => "jns"
  | .jnc => "jnc"
  | .jos => "jos"
  | .joc => "joc"
  | .jlt => "jlt"
  | .jge => "jge"
  | .call => "call"
  | .ret => "ret"

/-- The operand byte count that goes with a mode (R94 (b)). -/
def AddrMode.operandByteCount : AddrMode → Nat
  | .imp => 0
  | .imm1 => 1
  | .imm2 | .abs | .absi | .absj | .ind => 2

/-- A row of the reference table: an opcode, its descriptor, and the instruction the row stands for, given the operand
(`hi:lo` for two operand bytes; for one byte, that byte below a zero byte). -/
structure Entry where
  opcode : Byte
  desc : Descriptor
  build : Word → Instr

/-- A row that is not privileged. -/
def userRow (opcode : Byte) (m : Mnemonic) (mode : AddrMode) (build : Word → Instr) : Entry :=
  ⟨opcode, ⟨m, mode, mode.operandByteCount, false⟩, build⟩

/-- A row with `needsPrivilege` set. -/
def privilegedRow (opcode : Byte) (m : Mnemonic) (mode : AddrMode) (build : Word → Instr) : Entry :=
  ⟨opcode, ⟨m, mode, mode.operandByteCount, true⟩, build⟩

/-- Opcodes 0x01 to 0x0F (46_flag_system.md). -/
def systemRows : List Entry :=
  [userRow 0x01#8 .nop .imp (fun _ => .nop),
   privilegedRow 0x02#8 .halt .imp (fun _ => .halt),
   userRow 0x08#8 .clc .imp (fun _ => .clc),
   userRow 0x09#8 .sec .imp (fun _ => .sec),
   userRow 0x0A#8 .clo .imp (fun _ => .clo),
   userRow 0x0B#8 .cld .imp (fun _ => .cld),
   userRow 0x0C#8 .sed .imp (fun _ => .sed),
   privilegedRow 0x0D#8 .cli .imp (fun _ => .cli),
   privilegedRow 0x0E#8 .sei .imp (fun _ => .sei),
   privilegedRow 0x0F#8 .cls .imp (fun _ => .cls)]

/-- Opcodes 0x10 to 0x27 (41_load_store.md). -/
def loadRows : List Entry :=
  [userRow 0x10#8 .lda .imm2 .ldaImm2,
   userRow 0x11#8 .lda .abs .ldaAbs,
   userRow 0x12#8 .lda .absi .ldaAbsi,
   userRow 0x13#8 .lda .absj .ldaAbsj,
   userRow 0x14#8 .lda .ind .ldaInd,
   userRow 0x15#8 .ldah .imm1 (fun w => .ldahImm1 (loByte w)),
   userRow 0x16#8 .ldah .abs .ldahAbs,
   userRow 0x17#8 .ldal .imm1 (fun w => .ldalImm1 (loByte w)),
   userRow 0x18#8 .ldal .abs .ldalAbs,
   userRow 0x19#8 .ldal .absi .ldalAbsi,
   userRow 0x1A#8 .ldal .absj .ldalAbsj,
   userRow 0x1B#8 .ldal .ind .ldalInd,
   userRow 0x1C#8 .ldb .imm2 .ldbImm2,
   userRow 0x1D#8 .ldb .abs .ldbAbs,
   userRow 0x1E#8 .ldbh .imm1 (fun w => .ldbhImm1 (loByte w)),
   userRow 0x1F#8 .ldbh .abs .ldbhAbs,
   userRow 0x20#8 .ldbl .imm1 (fun w => .ldblImm1 (loByte w)),
   userRow 0x21#8 .ldbl .abs .ldblAbs,
   userRow 0x22#8 .ldi .imm2 .ldiImm2,
   userRow 0x23#8 .ldi .abs .ldiAbs,
   userRow 0x24#8 .ldj .imm2 .ldjImm2,
   userRow 0x25#8 .ldj .abs .ldjAbs,
   userRow 0x26#8 .ldsp .imm2 .ldspImm2,
   userRow 0x27#8 .ldsp .abs .ldspAbs]

/-- Opcodes 0x30 to 0x3D (41_load_store.md). -/
def storeRows : List Entry :=
  [userRow 0x30#8 .sta .abs .staAbs,
   userRow 0x31#8 .sta .absi .staAbsi,
   userRow 0x32#8 .sta .absj .staAbsj,
   userRow 0x33#8 .sta .ind .staInd,
   userRow 0x34#8 .stah .abs .stahAbs,
   userRow 0x35#8 .stal .abs .stalAbs,
   userRow 0x36#8 .stal .absi .stalAbsi,
   userRow 0x37#8 .stal .absj .stalAbsj,
   userRow 0x38#8 .stal .ind .stalInd,
   userRow 0x39#8 .stb .abs .stbAbs,
   userRow 0x3A#8 .stbh .abs .stbhAbs,
   userRow 0x3B#8 .stbl .abs .stblAbs,
   userRow 0x3C#8 .sti .abs .stiAbs,
   userRow 0x3D#8 .stj .abs .stjAbs]

/-- Opcodes 0x40 to 0x4B (42_transfer.md). -/
def transferRows : List Entry :=
  [userRow 0x40#8 .tab .imp (fun _ => .tab),
   userRow 0x41#8 .tba .imp (fun _ => .tba),
   userRow 0x42#8 .tai .imp (fun _ => .tai),
   userRow 0x43#8 .tia .imp (fun _ => .tia),
   userRow 0x44#8 .taj .imp (fun _ => .taj),
   userRow 0x45#8 .tja .imp (fun _ => .tja),
   userRow 0x46#8 .tad .imp (fun _ => .tad),
   userRow 0x47#8 .tda .imp (fun _ => .tda),
   userRow 0x48#8 .tasp .imp (fun _ => .tasp),
   userRow 0x49#8 .tspa .imp (fun _ => .tspa),
   privilegedRow 0x4A#8 .tasr .imp (fun _ => .tasr),
   userRow 0x4B#8 .tsra .imp (fun _ => .tsra)]

/-- Opcodes 0x50 to 0x63, arithmetic and logic on A (43_alu.md). -/
def aluARows : List Entry :=
  [userRow 0x50#8 .add .imm2 .addImm2,
   userRow 0x51#8 .add .abs .addAbs,
   userRow 0x52#8 .sub .imm2 .subImm2,
   userRow 0x53#8 .sub .abs .subAbs,
   userRow 0x54#8 .and .imm2 .andImm2,
   userRow 0x55#8 .and .abs .andAbs,
   userRow 0x56#8 .or .imm2 .orImm2,
   userRow 0x57#8 .or .abs .orAbs,
   userRow 0x58#8 .addh .imm1 (fun w => .addhImm1 (loByte w)),
   userRow 0x59#8 .addh .abs .addhAbs,
   userRow 0x5A#8 .addl .imm1 (fun w => .addlImm1 (loByte w)),
   userRow 0x5B#8 .addl .abs .addlAbs,
   userRow 0x5C#8 .subh .imm1 (fun w => .subhImm1 (loByte w)),
   userRow 0x5D#8 .subh .abs .subhAbs,
   userRow 0x5E#8 .subl .imm1 (fun w => .sublImm1 (loByte w)),
   userRow 0x5F#8 .subl .abs .sublAbs,
   userRow 0x60#8 .andl .imm1 (fun w => .andlImm1 (loByte w)),
   userRow 0x61#8 .andl .abs .andlAbs,
   userRow 0x62#8 .orl .imm1 (fun w => .orlImm1 (loByte w)),
   userRow 0x63#8 .orl .abs .orlAbs]

/-- Opcodes 0x70 to 0x83, arithmetic and logic on B (43_alu.md). -/
def aluBRows : List Entry :=
  [userRow 0x70#8 .addb .imm2 .addbImm2,
   userRow 0x71#8 .addb .abs .addbAbs,
   userRow 0x72#8 .subb .imm2 .subbImm2,
   userRow 0x73#8 .subb .abs .subbAbs,
   userRow 0x74#8 .andb .imm2 .andbImm2,
   userRow 0x75#8 .andb .abs .andbAbs,
   userRow 0x76#8 .orb .imm2 .orbImm2,
   userRow 0x77#8 .orb .abs .orbAbs,
   userRow 0x78#8 .addbh .imm1 (fun w => .addbhImm1 (loByte w)),
   userRow 0x79#8 .addbh .abs .addbhAbs,
   userRow 0x7A#8 .addbl .imm1 (fun w => .addblImm1 (loByte w)),
   userRow 0x7B#8 .addbl .abs .addblAbs,
   userRow 0x7C#8 .subbh .imm1 (fun w => .subbhImm1 (loByte w)),
   userRow 0x7D#8 .subbh .abs .subbhAbs,
   userRow 0x7E#8 .subbl .imm1 (fun w => .subblImm1 (loByte w)),
   userRow 0x7F#8 .subbl .abs .subblAbs,
   userRow 0x80#8 .andbl .imm1 (fun w => .andblImm1 (loByte w)),
   userRow 0x81#8 .andbl .abs .andblAbs,
   userRow 0x82#8 .orbl .imm1 (fun w => .orblImm1 (loByte w)),
   userRow 0x83#8 .orbl .abs .orblAbs]

/-- Opcodes 0x90 to 0x93 (43_alu.md). -/
def indexRows : List Entry :=
  [userRow 0x90#8 .ini .imp (fun _ => .ini),
   userRow 0x91#8 .dei .imp (fun _ => .dei),
   userRow 0x92#8 .inj .imp (fun _ => .inj),
   userRow 0x93#8 .dej .imp (fun _ => .dej)]

/-- Opcodes 0xA0 to 0xA5 (44_stack.md). -/
def stackRows : List Entry :=
  [userRow 0xA0#8 .psha .imp (fun _ => .psha),
   userRow 0xA1#8 .popa .imp (fun _ => .popa),
   userRow 0xA2#8 .pshb .imp (fun _ => .pshb),
   userRow 0xA3#8 .popb .imp (fun _ => .popb),
   userRow 0xA4#8 .pshsr .imp (fun _ => .pshsr),
   privilegedRow 0xA5#8 .popsr .imp (fun _ => .popsr)]

/-- Opcodes 0xB0 to 0xBD (45_control.md). -/
def controlRows : List Entry :=
  [userRow 0xB0#8 .jmp .abs .jmpAbs,
   userRow 0xB1#8 .jmp .ind .jmpInd,
   userRow 0xB2#8 .jeq .abs .jeqAbs,
   userRow 0xB3#8 .jne .abs .jneAbs,
   userRow 0xB4#8 .jcs .abs .jcsAbs,
   userRow 0xB5#8 .jcc .abs .jccAbs,
   userRow 0xB6#8 .jns .abs .jnsAbs,
   userRow 0xB7#8 .jnc .abs .jncAbs,
   userRow 0xB8#8 .jos .abs .josAbs,
   userRow 0xB9#8 .joc .abs .jocAbs,
   userRow 0xBA#8 .jlt .abs .jltAbs,
   userRow 0xBB#8 .jge .abs .jgeAbs,
   userRow 0xBC#8 .call .abs .callAbs,
   userRow 0xBD#8 .ret .imp (fun _ => .ret)]

/-- `REF_ITAB` (R97) with the instruction each of its 124 rows stands for. -/
def refEntries : List Entry :=
  systemRows ++ loadRows ++ storeRows ++ transferRows ++ aluARows ++
    aluBRows ++ indexRows ++ stackRows ++ controlRows

/-- The tag of a declared mode: "immediate" becomes `IMM1` for one declared byte and `IMM2` for two (R93). Any other count
beside "immediate" makes no table (R94 (b), `Declaration.wellFormed`). -/
def DeclaredMode.tag (count : Nat) : DeclaredMode → AddrMode
  | .immediate => if count = 1 then .imm1 else .imm2
  | .tagged mode => mode

/-- The descriptor of a declared entry, its mode rewritten to a tag (R93). -/
def Declaration.descriptor (d : Declaration) : Descriptor :=
  ⟨d.mnemonic, d.mode.tag d.operandByteCount, d.operandByteCount, d.needsPrivilege⟩

/-- A descriptor declared with its tag. -/
def Descriptor.declared (d : Descriptor) : Declaration :=
  ⟨d.mnemonic, .tagged d.mode, d.operandByteCount, d.needsPrivilege⟩

/-- A mode declared with no width on an immediate. -/
def AddrMode.untagged : AddrMode → DeclaredMode
  | .imm1 | .imm2 => .immediate
  | mode => .tagged mode

/-- A descriptor declared with no width on an immediate (R93). -/
def Descriptor.declaredUntagged (d : Descriptor) : Declaration :=
  ⟨d.mnemonic, d.mode.untagged, d.operandByteCount, d.needsPrivilege⟩

/-- `REF_ITAB` as a declared Instruction Table, every entry tagged as R97 lists it. -/
def refItab : Itab := refEntries.map fun e => (e.opcode, e.desc.declared)

/-- `REF_ITAB` declared with untagged immediates, as the source's instruction list may be (R93). -/
def refItabUntagged : Itab := refEntries.map fun e => (e.opcode, e.desc.declaredUntagged)

/-- `lookup(opcode)` in the reference table: the row, or not-found (R95). It reads nothing but the opcode byte. The rows
carry the tags of R97, which the rewrite of R93 leaves as they are. -/
def findEntry (op : Byte) : Option Entry := refEntries.find? fun e => e.opcode == op

/-- `lookup(opcode)` in any table (R95): the entry's descriptor, its mode rewritten to a tag (R93). -/
def Itab.lookup (t : Itab) (op : Byte) : Option Descriptor := (t.find? fun r => r.1 == op).map fun r => r.2.descriptor

/-- Why a byte string begins with no instruction. -/
inductive DecodeError where
  /-- There is no opcode byte. -/
  | noOpcode
  /-- The table has no entry for the opcode (R98). -/
  | unrecognizedOpcode (op : Byte)
  /-- Fewer operand bytes follow than the descriptor asks for. -/
  | truncated (op : Byte)
deriving DecidableEq, Repr

/-- `n` operand bytes as one operand word, and the bytes after them; the first of two bytes is the high one (R63, R92). -/
def takeOperand : Nat → List Byte → Option (Word × List Byte)
  | 0, bs => some (0x0000#16, bs)
  | 1, b :: bs => some (wordOf 0x00#8 b, bs)
  | 2, h :: l :: bs => some (wordOf h l, bs)
  | _, _ => none

/-- The instruction at the head of a byte string and the bytes after it (R90, R96). -/
def decode : List Byte → Except DecodeError (Instr × List Byte)
  | [] => .error .noOpcode
  | op :: bs =>
    match findEntry op with
    | none => .error (.unrecognizedOpcode op)
    | some e =>
      match takeOperand e.desc.operandByteCount bs with
      | none => .error (.truncated op)
      | some (w, rest) => .ok (e.build w, rest)

/-- The mnemonic of an instruction. -/
def Instr.mnemonic : Instr → Mnemonic
  | .nop => .nop
  | .halt => .halt
  | .clc => .clc
  | .sec => .sec
  | .clo => .clo
  | .cld => .cld
  | .sed => .sed
  | .cli => .cli
  | .sei => .sei
  | .cls => .cls
  | .ldaImm2 _ => .lda
  | .ldaAbs _ => .lda
  | .ldaAbsi _ => .lda
  | .ldaAbsj _ => .lda
  | .ldaInd _ => .lda
  | .ldahImm1 _ => .ldah
  | .ldahAbs _ => .ldah
  | .ldalImm1 _ => .ldal
  | .ldalAbs _ => .ldal
  | .ldalAbsi _ => .ldal
  | .ldalAbsj _ => .ldal
  | .ldalInd _ => .ldal
  | .ldbImm2 _ => .ldb
  | .ldbAbs _ => .ldb
  | .ldbhImm1 _ => .ldbh
  | .ldbhAbs _ => .ldbh
  | .ldblImm1 _ => .ldbl
  | .ldblAbs _ => .ldbl
  | .ldiImm2 _ => .ldi
  | .ldiAbs _ => .ldi
  | .ldjImm2 _ => .ldj
  | .ldjAbs _ => .ldj
  | .ldspImm2 _ => .ldsp
  | .ldspAbs _ => .ldsp
  | .staAbs _ => .sta
  | .staAbsi _ => .sta
  | .staAbsj _ => .sta
  | .staInd _ => .sta
  | .stahAbs _ => .stah
  | .stalAbs _ => .stal
  | .stalAbsi _ => .stal
  | .stalAbsj _ => .stal
  | .stalInd _ => .stal
  | .stbAbs _ => .stb
  | .stbhAbs _ => .stbh
  | .stblAbs _ => .stbl
  | .stiAbs _ => .sti
  | .stjAbs _ => .stj
  | .tab => .tab
  | .tba => .tba
  | .tai => .tai
  | .tia => .tia
  | .taj => .taj
  | .tja => .tja
  | .tad => .tad
  | .tda => .tda
  | .tasp => .tasp
  | .tspa => .tspa
  | .tasr => .tasr
  | .tsra => .tsra
  | .addImm2 _ => .add
  | .addAbs _ => .add
  | .subImm2 _ => .sub
  | .subAbs _ => .sub
  | .andImm2 _ => .and
  | .andAbs _ => .and
  | .orImm2 _ => .or
  | .orAbs _ => .or
  | .addhImm1 _ => .addh
  | .addhAbs _ => .addh
  | .addlImm1 _ => .addl
  | .addlAbs _ => .addl
  | .subhImm1 _ => .subh
  | .subhAbs _ => .subh
  | .sublImm1 _ => .subl
  | .sublAbs _ => .subl
  | .andlImm1 _ => .andl
  | .andlAbs _ => .andl
  | .orlImm1 _ => .orl
  | .orlAbs _ => .orl
  | .addbImm2 _ => .addb
  | .addbAbs _ => .addb
  | .subbImm2 _ => .subb
  | .subbAbs _ => .subb
  | .andbImm2 _ => .andb
  | .andbAbs _ => .andb
  | .orbImm2 _ => .orb
  | .orbAbs _ => .orb
  | .addbhImm1 _ => .addbh
  | .addbhAbs _ => .addbh
  | .addblImm1 _ => .addbl
  | .addblAbs _ => .addbl
  | .subbhImm1 _ => .subbh
  | .subbhAbs _ => .subbh
  | .subblImm1 _ => .subbl
  | .subblAbs _ => .subbl
  | .andblImm1 _ => .andbl
  | .andblAbs _ => .andbl
  | .orblImm1 _ => .orbl
  | .orblAbs _ => .orbl
  | .ini => .ini
  | .dei => .dei
  | .inj => .inj
  | .dej => .dej
  | .psha => .psha
  | .popa => .popa
  | .pshb => .pshb
  | .popb => .popb
  | .pshsr => .pshsr
  | .popsr => .popsr
  | .jmpAbs _ => .jmp
  | .jmpInd _ => .jmp
  | .jeqAbs _ => .jeq
  | .jneAbs _ => .jne
  | .jcsAbs _ => .jcs
  | .jccAbs _ => .jcc
  | .jnsAbs _ => .jns
  | .jncAbs _ => .jnc
  | .josAbs _ => .jos
  | .jocAbs _ => .joc
  | .jltAbs _ => .jlt
  | .jgeAbs _ => .jge
  | .callAbs _ => .call
  | .ret => .ret

/-- The addressing mode of an instruction. -/
def Instr.mode : Instr → AddrMode
  | .nop => .imp
  | .halt => .imp
  | .clc => .imp
  | .sec => .imp
  | .clo => .imp
  | .cld => .imp
  | .sed => .imp
  | .cli => .imp
  | .sei => .imp
  | .cls => .imp
  | .ldaImm2 _ => .imm2
  | .ldaAbs _ => .abs
  | .ldaAbsi _ => .absi
  | .ldaAbsj _ => .absj
  | .ldaInd _ => .ind
  | .ldahImm1 _ => .imm1
  | .ldahAbs _ => .abs
  | .ldalImm1 _ => .imm1
  | .ldalAbs _ => .abs
  | .ldalAbsi _ => .absi
  | .ldalAbsj _ => .absj
  | .ldalInd _ => .ind
  | .ldbImm2 _ => .imm2
  | .ldbAbs _ => .abs
  | .ldbhImm1 _ => .imm1
  | .ldbhAbs _ => .abs
  | .ldblImm1 _ => .imm1
  | .ldblAbs _ => .abs
  | .ldiImm2 _ => .imm2
  | .ldiAbs _ => .abs
  | .ldjImm2 _ => .imm2
  | .ldjAbs _ => .abs
  | .ldspImm2 _ => .imm2
  | .ldspAbs _ => .abs
  | .staAbs _ => .abs
  | .staAbsi _ => .absi
  | .staAbsj _ => .absj
  | .staInd _ => .ind
  | .stahAbs _ => .abs
  | .stalAbs _ => .abs
  | .stalAbsi _ => .absi
  | .stalAbsj _ => .absj
  | .stalInd _ => .ind
  | .stbAbs _ => .abs
  | .stbhAbs _ => .abs
  | .stblAbs _ => .abs
  | .stiAbs _ => .abs
  | .stjAbs _ => .abs
  | .tab => .imp
  | .tba => .imp
  | .tai => .imp
  | .tia => .imp
  | .taj => .imp
  | .tja => .imp
  | .tad => .imp
  | .tda => .imp
  | .tasp => .imp
  | .tspa => .imp
  | .tasr => .imp
  | .tsra => .imp
  | .addImm2 _ => .imm2
  | .addAbs _ => .abs
  | .subImm2 _ => .imm2
  | .subAbs _ => .abs
  | .andImm2 _ => .imm2
  | .andAbs _ => .abs
  | .orImm2 _ => .imm2
  | .orAbs _ => .abs
  | .addhImm1 _ => .imm1
  | .addhAbs _ => .abs
  | .addlImm1 _ => .imm1
  | .addlAbs _ => .abs
  | .subhImm1 _ => .imm1
  | .subhAbs _ => .abs
  | .sublImm1 _ => .imm1
  | .sublAbs _ => .abs
  | .andlImm1 _ => .imm1
  | .andlAbs _ => .abs
  | .orlImm1 _ => .imm1
  | .orlAbs _ => .abs
  | .addbImm2 _ => .imm2
  | .addbAbs _ => .abs
  | .subbImm2 _ => .imm2
  | .subbAbs _ => .abs
  | .andbImm2 _ => .imm2
  | .andbAbs _ => .abs
  | .orbImm2 _ => .imm2
  | .orbAbs _ => .abs
  | .addbhImm1 _ => .imm1
  | .addbhAbs _ => .abs
  | .addblImm1 _ => .imm1
  | .addblAbs _ => .abs
  | .subbhImm1 _ => .imm1
  | .subbhAbs _ => .abs
  | .subblImm1 _ => .imm1
  | .subblAbs _ => .abs
  | .andblImm1 _ => .imm1
  | .andblAbs _ => .abs
  | .orblImm1 _ => .imm1
  | .orblAbs _ => .abs
  | .ini => .imp
  | .dei => .imp
  | .inj => .imp
  | .dej => .imp
  | .psha => .imp
  | .popa => .imp
  | .pshb => .imp
  | .popb => .imp
  | .pshsr => .imp
  | .popsr => .imp
  | .jmpAbs _ => .abs
  | .jmpInd _ => .ind
  | .jeqAbs _ => .abs
  | .jneAbs _ => .abs
  | .jcsAbs _ => .abs
  | .jccAbs _ => .abs
  | .jnsAbs _ => .abs
  | .jncAbs _ => .abs
  | .josAbs _ => .abs
  | .jocAbs _ => .abs
  | .jltAbs _ => .abs
  | .jgeAbs _ => .abs
  | .callAbs _ => .abs
  | .ret => .imp

/-- The set of privileged mnemonics of the reference table: halt, cli, sei, cls, tasr, popsr (R290). -/
def Mnemonic.privileged : Mnemonic → Bool
  | .halt | .cli | .sei | .cls | .tasr | .popsr => true
  | _ => false

/-- The descriptor of an instruction of the reference table. -/
def Instr.descriptor (i : Instr) : Descriptor :=
  ⟨i.mnemonic, i.mode, i.mode.operandByteCount, i.mnemonic.privileged⟩

/-- Format F0: the opcode alone (R91). -/
def formatF0 (op : Byte) : List Byte := [op]

/-- Format F1: the opcode and `imm8` (R91). -/
def formatF1 (op imm : Byte) : List Byte := [op, imm]

/-- Format F2: the opcode, `hi`, `lo` (R91). -/
def formatF2 (op : Byte) (w : Word) : List Byte := [op, hiByte w, loByte w]

/-- The bytes of an instruction, lowest address first (R90, R91, R97). -/
def encode : Instr → List Byte
  | .nop => formatF0 0x01#8
  | .halt => formatF0 0x02#8
  | .clc => formatF0 0x08#8
  | .sec => formatF0 0x09#8
  | .clo => formatF0 0x0A#8
  | .cld => formatF0 0x0B#8
  | .sed => formatF0 0x0C#8
  | .cli => formatF0 0x0D#8
  | .sei => formatF0 0x0E#8
  | .cls => formatF0 0x0F#8
  | .ldaImm2 imm => formatF2 0x10#8 imm
  | .ldaAbs addr => formatF2 0x11#8 addr
  | .ldaAbsi base => formatF2 0x12#8 base
  | .ldaAbsj base => formatF2 0x13#8 base
  | .ldaInd ptr => formatF2 0x14#8 ptr
  | .ldahImm1 imm => formatF1 0x15#8 imm
  | .ldahAbs addr => formatF2 0x16#8 addr
  | .ldalImm1 imm => formatF1 0x17#8 imm
  | .ldalAbs addr => formatF2 0x18#8 addr
  | .ldalAbsi base => formatF2 0x19#8 base
  | .ldalAbsj base => formatF2 0x1A#8 base
  | .ldalInd ptr => formatF2 0x1B#8 ptr
  | .ldbImm2 imm => formatF2 0x1C#8 imm
  | .ldbAbs addr => formatF2 0x1D#8 addr
  | .ldbhImm1 imm => formatF1 0x1E#8 imm
  | .ldbhAbs addr => formatF2 0x1F#8 addr
  | .ldblImm1 imm => formatF1 0x20#8 imm
  | .ldblAbs addr => formatF2 0x21#8 addr
  | .ldiImm2 imm => formatF2 0x22#8 imm
  | .ldiAbs addr => formatF2 0x23#8 addr
  | .ldjImm2 imm => formatF2 0x24#8 imm
  | .ldjAbs addr => formatF2 0x25#8 addr
  | .ldspImm2 imm => formatF2 0x26#8 imm
  | .ldspAbs addr => formatF2 0x27#8 addr
  | .staAbs addr => formatF2 0x30#8 addr
  | .staAbsi base => formatF2 0x31#8 base
  | .staAbsj base => formatF2 0x32#8 base
  | .staInd ptr => formatF2 0x33#8 ptr
  | .stahAbs addr => formatF2 0x34#8 addr
  | .stalAbs addr => formatF2 0x35#8 addr
  | .stalAbsi base => formatF2 0x36#8 base
  | .stalAbsj base => formatF2 0x37#8 base
  | .stalInd ptr => formatF2 0x38#8 ptr
  | .stbAbs addr => formatF2 0x39#8 addr
  | .stbhAbs addr => formatF2 0x3A#8 addr
  | .stblAbs addr => formatF2 0x3B#8 addr
  | .stiAbs addr => formatF2 0x3C#8 addr
  | .stjAbs addr => formatF2 0x3D#8 addr
  | .tab => formatF0 0x40#8
  | .tba => formatF0 0x41#8
  | .tai => formatF0 0x42#8
  | .tia => formatF0 0x43#8
  | .taj => formatF0 0x44#8
  | .tja => formatF0 0x45#8
  | .tad => formatF0 0x46#8
  | .tda => formatF0 0x47#8
  | .tasp => formatF0 0x48#8
  | .tspa => formatF0 0x49#8
  | .tasr => formatF0 0x4A#8
  | .tsra => formatF0 0x4B#8
  | .addImm2 imm => formatF2 0x50#8 imm
  | .addAbs addr => formatF2 0x51#8 addr
  | .subImm2 imm => formatF2 0x52#8 imm
  | .subAbs addr => formatF2 0x53#8 addr
  | .andImm2 imm => formatF2 0x54#8 imm
  | .andAbs addr => formatF2 0x55#8 addr
  | .orImm2 imm => formatF2 0x56#8 imm
  | .orAbs addr => formatF2 0x57#8 addr
  | .addhImm1 imm => formatF1 0x58#8 imm
  | .addhAbs addr => formatF2 0x59#8 addr
  | .addlImm1 imm => formatF1 0x5A#8 imm
  | .addlAbs addr => formatF2 0x5B#8 addr
  | .subhImm1 imm => formatF1 0x5C#8 imm
  | .subhAbs addr => formatF2 0x5D#8 addr
  | .sublImm1 imm => formatF1 0x5E#8 imm
  | .sublAbs addr => formatF2 0x5F#8 addr
  | .andlImm1 imm => formatF1 0x60#8 imm
  | .andlAbs addr => formatF2 0x61#8 addr
  | .orlImm1 imm => formatF1 0x62#8 imm
  | .orlAbs addr => formatF2 0x63#8 addr
  | .addbImm2 imm => formatF2 0x70#8 imm
  | .addbAbs addr => formatF2 0x71#8 addr
  | .subbImm2 imm => formatF2 0x72#8 imm
  | .subbAbs addr => formatF2 0x73#8 addr
  | .andbImm2 imm => formatF2 0x74#8 imm
  | .andbAbs addr => formatF2 0x75#8 addr
  | .orbImm2 imm => formatF2 0x76#8 imm
  | .orbAbs addr => formatF2 0x77#8 addr
  | .addbhImm1 imm => formatF1 0x78#8 imm
  | .addbhAbs addr => formatF2 0x79#8 addr
  | .addblImm1 imm => formatF1 0x7A#8 imm
  | .addblAbs addr => formatF2 0x7B#8 addr
  | .subbhImm1 imm => formatF1 0x7C#8 imm
  | .subbhAbs addr => formatF2 0x7D#8 addr
  | .subblImm1 imm => formatF1 0x7E#8 imm
  | .subblAbs addr => formatF2 0x7F#8 addr
  | .andblImm1 imm => formatF1 0x80#8 imm
  | .andblAbs addr => formatF2 0x81#8 addr
  | .orblImm1 imm => formatF1 0x82#8 imm
  | .orblAbs addr => formatF2 0x83#8 addr
  | .ini => formatF0 0x90#8
  | .dei => formatF0 0x91#8
  | .inj => formatF0 0x92#8
  | .dej => formatF0 0x93#8
  | .psha => formatF0 0xA0#8
  | .popa => formatF0 0xA1#8
  | .pshb => formatF0 0xA2#8
  | .popb => formatF0 0xA3#8
  | .pshsr => formatF0 0xA4#8
  | .popsr => formatF0 0xA5#8
  | .jmpAbs addr => formatF2 0xB0#8 addr
  | .jmpInd ptr => formatF2 0xB1#8 ptr
  | .jeqAbs addr => formatF2 0xB2#8 addr
  | .jneAbs addr => formatF2 0xB3#8 addr
  | .jcsAbs addr => formatF2 0xB4#8 addr
  | .jccAbs addr => formatF2 0xB5#8 addr
  | .jnsAbs addr => formatF2 0xB6#8 addr
  | .jncAbs addr => formatF2 0xB7#8 addr
  | .josAbs addr => formatF2 0xB8#8 addr
  | .jocAbs addr => formatF2 0xB9#8 addr
  | .jltAbs addr => formatF2 0xBA#8 addr
  | .jgeAbs addr => formatF2 0xBB#8 addr
  | .callAbs addr => formatF2 0xBC#8 addr
  | .ret => formatF0 0xBD#8

/-- Byte `k` of an instruction whose first byte is the least significant one. -/
def tableByte (w k : Nat) : Byte := BitVec.ofNat 8 (w / 256 ^ k)

/-- The instruction the decoder reads from a word of the opcode table: `nbits` bits of it, byte 0 the least significant,
every byte above them zero. The longest instruction has three bytes (R90). -/
def tableBytes (nbits w : Nat) : List Byte :=
  let v := w % 2 ^ nbits
  [tableByte v 0, tableByte v 1, tableByte v 2]

/-- The instruction `decode` reads from the bytes of `tableBytes`; none where it refuses. -/
def decodeTableWord (nbits w : Nat) : Option Instr :=
  match decode (tableBytes nbits w) with
  | .ok (i, _) => some i
  | .error _ => none

end Sys2Proof
end

