-- ==== Sys2Proof/Machine/State.lean ====
section
/-! DEFINITION. The state of the machine as plain data (10_state.md), the reasons a step can stop, and the state right
after reset. Every piece of state the spec names is a field; `result` is the model's own (log 5). -/

namespace Sys2Proof.Machine

/-- The error kinds of 60_exceptions.md R301. They are values a step returns to the host, never a trap (R300). -/
inductive ErrorKind where
  /-- "opcode has no Instruction Table entry" (R302). -/
  | unrecognizedOpcode
  /-- "privileged instruction executed while Supervisor flag clear" (R303). -/
  | privilegeFault
  /-- "video peripheral text-draw mode invoked" (R304). -/
  | unimplementedMode
  /-- "video peripheral X/Y latch combination exceeds framebuffer size" (R305). -/
  | outOfBoundsCoordinate
  /-- "write targets ROM or character-map address range" (R306). -/
  | readOnlyRegionWrite
  /-- A video mode other than plot was read (R307). -/
  | unreadableMode
deriving DecidableEq, Repr

/-- The state of the fetch-decode-execute machine between steps (R28). -/
inductive RunState where
  | running
  | halted
  | faulted
deriving DecidableEq, Repr

/-- The value a step returns to its caller (40_step_and_addressing.md R111). -/
inductive StepResult where
  /-- `Ok(mnemonic)`: the instruction ran to its end. -/
  | ok (m : Mnemonic)
  /-- `Error(mnemonic, kind)`: a data access failed, the instruction stopped there, the core goes on. -/
  | error (m : Mnemonic) (k : ErrorKind)
  /-- `Fault(kind)`: fatal, the core is Faulted. -/
  | fault (k : ErrorKind)
  /-- `Stopped(RUN)`: the step was asked of a core that is not Running; nothing changed. -/
  | stopped (r : RunState)
deriving DecidableEq, Repr

/-- Bytes by index: a list of (index, byte) pairs in one canonical form (`Memory.wf`, Machine/Cells.lean). -/
abbrev Memory := List Host.Cell

/-- The video peripheral (10_state.md R32): four data latches, two coordinate latches, and the framebuffer, whose
cells are indexed from 0 and are no part of the address space. -/
structure Video where
  d1 : Byte
  d2 : Byte
  d3 : Byte
  d4 : Byte
  x : Byte
  y : Byte
  /-- FB, by cell index, in the canonical form of `Memory`. -/
  fb : Memory
deriving DecidableEq, Repr

/-- The whole machine: the register file of 10_state.md R12, RUN (R28), CUR (R29), MEM (R31), the video peripheral
(R32), and `result`, the value the last step returned (R111; the model's own field, log 5). -/
structure State where
  pc : Word
  sp : Word
  a : Word
  b : Word
  i : Word
  j : Word
  dr : Word
  sr : Byte
  ir : Byte
  emh : Byte
  eml : Byte
  imh : Byte
  iml : Byte
  ar : Word
  run : RunState
  cur : Option Mnemonic
  mem : Memory
  video : Video
  result : Option StepResult
deriving DecidableEq, Repr

/-- Reasons for a step to end without a next state. There is none, so the type is empty: what the spec calls a Fault
leaves a state ("RUN <- Faulted", R310) and is a next state here, and every address is mapped (R50, R54). Safe. -/
inductive Fault where
deriving DecidableEq, Repr

/-- Reasons for the model to refuse. Only `notModelled` concerns `exec`, and no arm of it is left; the others are
raised for a configuration, a table or an image the spec says a model refuses. -/
inductive Refusal where
  /-- An instruction without a meaning. Raised by `exec` alone; no instruction is left without one. Safe. -/
  | notModelled (mnemonic : String)
  /-- Raised by `operate` (Machine/Param.lean): a user-supplied table pairs a mnemonic with a mode for which no
  operation is defined; `machineFor` refuses such a table before the first step (R125, U23). Safe. -/
  | undefinedPair (m : Mnemonic) (mode : AddrMode)
  /-- Raised by `machineFor` (Machine/Param.lean) and `boot` (Machine/Boot.lean): overlapping regions, a port that does
  not fit, a raster side outside 1..256 (R5, U24). Safe. -/
  | badConfig
  /-- Raised by `machineFor` (Machine/Param.lean): a table that breaks R94: a duplicate opcode, an operand count that does
  not match the mode, a pair with no defined operation (U23). Safe. -/
  | badTable
  /-- Raised by `boot` (Machine/Boot.lean): an image is not exactly as long as its region (R56, U25). Safe. -/
  | badImage
  /-- Raised by `boot` (Machine/Boot.lean): power-on bytes given for indices that are no RAM or no framebuffer cell, or not
  in canonical form. A check of the model's data, not of the hardware. Safe. -/
  | badContents
deriving DecidableEq, Repr

/-- The video peripheral of `State.reset`: `reset()` does not touch it, and LATCH_INIT and FB_INIT are open in the spec;
DESIGN CHOICE: every latch and cell 0x00 (log 3, unsafe). -/
def Video.initial : Video where
  d1 := 0x00#8
  d2 := 0x00#8
  d3 := 0x00#8
  d4 := 0x00#8
  x := 0x00#8
  y := 0x00#8
  fb := []

/-- The reference machine right after the first `reset()` (R40, R360, R365). SR is 0x0C: S and the reserved bit set, with
POWERON_I = POWERON_D = 0 (DESIGN CHOICE, log 4, unsafe); memory lists nothing (DESIGN CHOICE, log 2, unsafe). -/
def State.reset : State where
  pc := 0xF000#16
  sp := 0x0000#16
  a := 0x0000#16
  b := 0x0000#16
  i := 0x0000#16
  j := 0x0000#16
  dr := 0x0000#16
  sr := 0x0C#8
  ir := 0x00#8
  emh := 0x00#8
  eml := 0x00#8
  imh := 0x00#8
  iml := 0x00#8
  ar := 0x0000#16
  run := .running
  cur := none
  mem := []
  video := Video.initial
  result := none

end Sys2Proof.Machine
end

