-- ==== Sys2Proof/Machine/Flags.lean ====
section
/-! DEFINITION. The status register's bits (10_state.md R18 to R23), the four flagged operations of the Register Bank
(43_alu.md R190 to R193), which flags an instruction copies (R197), and the jump conditions (45_control.md). -/

namespace Sys2Proof.Machine

/-- The seven flags of SR (R18). Bit 2 is no flag: it is reserved and always 1. -/
inductive Flag where
  | n
  | o
  | i
  | d
  | s
  | z
  | c
deriving DecidableEq, Repr

/-- The bit of SR that holds a flag (R18). -/
def Flag.bit : Flag → Nat
  | .n => 7
  | .o => 6
  | .i => 5
  | .d => 4
  | .s => 3
  | .z => 1
  | .c => 0

/-- Bit 2 of a status byte, which is no flag (R19). -/
def reservedBit (sr : Byte) : Bool := sr.getLsbD 2

/-- The flag's value in a status byte. -/
def getFlag (f : Flag) (sr : Byte) : Bool := sr.getLsbD f.bit

/-- The status byte with one flag written and every other bit as it was (R20). -/
def setFlag (f : Flag) (v : Bool) (sr : Byte) : Byte :=
  if v then sr ||| (1#8 <<< f.bit) else sr &&& ~~~(1#8 <<< f.bit)

/-- What SR holds after a whole byte is written to it: bit 2 is forced to 1 (R19, D28). -/
def statusOf (v : Byte) : Byte := v ||| 0x04#8

/-- What SR holds after `reset()`: S and bit 2 set, N, O, Z, C clear, I and D as they were (R360). -/
def resetStatus (sr : Byte) : Byte := (sr &&& 0x30#8) ||| 0x0C#8

/-- The flag tuple of an addition or subtraction (R190). -/
structure ArithResult (w : Nat) where
  result : BitVec w
  carry : Bool
  overflow : Bool
  zero : Bool
  negative : Bool
deriving DecidableEq, Repr

/-- What a bitwise operation reports: "only `{result, zero, negative}`" (R192). -/
structure LogicResult (w : Nat) where
  result : BitVec w
  zero : Bool
  negative : Bool
deriving DecidableEq, Repr

/-- `ADD_w(a, b)` (R190): the raw sum is an unbounded integer, carry is "wrapped less than raw", and there is no carry input. -/
def addFlagged {w : Nat} (a b : BitVec w) : ArithResult w :=
  let raw := a.toNat + b.toNat
  let result := BitVec.ofNat w raw
  { result := result
    carry := decide (result.toNat < raw)
    overflow := a.msb == b.msb && result.msb != a.msb
    zero := result == 0#w
    negative := result.msb }

/-- `SUB_w(a, b) = ADD_w(a, (2^w - b) mod 2^w)`, all five outputs included (R191): the carry is no borrow flag. -/
def subFlagged {w : Nat} (a b : BitVec w) : ArithResult w :=
  addFlagged a (BitVec.ofNat w (2 ^ w - b.toNat))

/-- `AND_w(a, b)` (R192). -/
def andFlagged {w : Nat} (a b : BitVec w) : LogicResult w :=
  let result := a &&& b
  { result := result, zero := result == 0#w, negative := result.msb }

/-- `OR_w(a, b)` (R193). -/
def orFlagged {w : Nat} (a b : BitVec w) : LogicResult w :=
  let result := a ||| b
  { result := result, zero := result == 0#w, negative := result.msb }

/-- `setCONZ(f)` (R7): C, O, Z, N are copied, every other bit stays. -/
def setCONZ {w : Nat} (f : ArithResult w) (sr : Byte) : Byte :=
  setFlag .n f.negative (setFlag .z f.zero (setFlag .o f.overflow (setFlag .c f.carry sr)))

/-- `setZN(f)` (R7): Z and N are copied, every other bit stays, C and O among them. -/
def setZN {w : Nat} (f : LogicResult w) (sr : Byte) : Byte :=
  setFlag .n f.negative (setFlag .z f.zero sr)

/-- The four operations of the Register Bank. -/
inductive AluOp where
  | add
  | sub
  | and
  | or
deriving DecidableEq, Repr

/-- The result of an operation (R190 to R193). -/
def AluOp.value {w : Nat} (op : AluOp) (a b : BitVec w) : BitVec w :=
  match op with
  | .add => (addFlagged a b).result
  | .sub => (subFlagged a b).result
  | .and => (andFlagged a b).result
  | .or => (orFlagged a b).result

/-- SR after an operation: add and sub copy C, O, Z, N, and and or copy Z, N (R197, D16). -/
def AluOp.status {w : Nat} (op : AluOp) (a b : BitVec w) (sr : Byte) : Byte :=
  match op with
  | .add => setCONZ (addFlagged a b) sr
  | .sub => setCONZ (subFlagged a b) sr
  | .and => setZN (andFlagged a b) sr
  | .or => setZN (orFlagged a b) sr

/-- The conditions of the jumps (45_control.md R256 to R266). -/
inductive Cond where
  | always
  | zero
  | notZero
  | carry
  | notCarry
  | negative
  | notNegative
  | overflow
  | notOverflow
  | less
  | greaterEqual
deriving DecidableEq, Repr

/-- Whether a condition holds of a status byte. -/
def Cond.holds (cond : Cond) (sr : Byte) : Bool :=
  match cond with
  | .always => true
  | .zero => getFlag .z sr
  | .notZero => !getFlag .z sr
  | .carry => getFlag .c sr
  | .notCarry => !getFlag .c sr
  | .negative => getFlag .n sr
  | .notNegative => !getFlag .n sr
  | .overflow => getFlag .o sr
  | .notOverflow => !getFlag .o sr
  | .less => getFlag .n sr != getFlag .o sr
  | .greaterEqual => getFlag .n sr == getFlag .o sr

end Sys2Proof.Machine
end

