-- ==== Sys2Proof/Machine/Cells.lean ====
section
/-! DEFINITION. Byte stores as canonical lists of (index, byte) pairs, used for MEM (10_state.md R31) and for the
framebuffer (R32): indices strictly rise and no entry equals what an unlisted index reads as, so that equal contents are
equal data. -/

namespace Sys2Proof.Machine

/-- What an index that a store does not list reads as. The spec leaves RAM_INIT, FB_INIT and the images open; DESIGN CHOICE:
0x00 (log 2 and 3, unsafe for `State.reset` alone: a claim over every state quantifies over all contents). -/
def unlistedByte : Byte := 0x00#8

/-- The byte at index `a`. -/
def Memory.read : Memory → Nat → Byte
  | [], _ => unlistedByte
  | (k, v) :: m, a => if k = a then v else Memory.read m a

/-- Puts an entry before the entries of `m`, unless its byte is what an unlisted index reads as. -/
def Memory.list (a : Nat) (b : Byte) (m : Memory) : Memory := if b = unlistedByte then m else (a, b) :: m

/-- The contents with byte `b` at index `a`, in canonical form. -/
def Memory.write : Memory → Nat → Byte → Memory
  | [], a, b => Memory.list a b []
  | (k, v) :: m, a, b =>
    if a < k then Memory.list a b ((k, v) :: m)
    else if a = k then Memory.list a b m
    else (k, v) :: Memory.write m a b

/-- The canonical form: indices strictly rise, and no entry holds what an unlisted index reads as. -/
def Memory.wf : Memory → Bool
  | [] => true
  | (k, v) :: m => m.all (fun c => decide (k < c.1)) && v != unlistedByte && Memory.wf m

/-- Every index of `m` is below `n`. -/
def Memory.below (m : Memory) (n : Nat) : Bool := m.all fun c => decide (c.1 < n)

/-- `n` entries from index `a` on, all with byte `b`. -/
def Memory.uniform (b : Byte) : Nat → Nat → Memory
  | 0, _ => []
  | n + 1, a => (a, b) :: Memory.uniform b n (a + 1)

/-- The contents whose first `n` indices all hold `b` (the video clear, R352). -/
def Memory.filled (n : Nat) (b : Byte) : Memory := if b = unlistedByte then [] else Memory.uniform b n 0

/-- The contents with the bytes of `bs` stored from index `a` on (an image at its region, 20_memory.md R56). -/
def Memory.place : Memory → Nat → List Byte → Memory
  | m, _, [] => m
  | m, a, b :: bs => Memory.place (m.write a b) (a + 1) bs

end Sys2Proof.Machine
end

