-- ==== Sys2Proof/Machine/Video.lean ====
section
/-! DEFINITION. The video peripheral's command and latch interface (60_exceptions.md R350 to R359). -/

namespace Sys2Proof.Machine

/-- The command modes (R350). -/
inductive VideoMode where
  | plot
  | clear
  | setX
  | setY
  | setD1
  | setD2
  | setD3
  | setD4
  | text
deriving DecidableEq, Repr

/-- The mode a port offset selects, `mode = address - VIDEO_BASE` in 0..8 (20_memory.md R57, R350, D7). -/
def videoModeAt : Nat → Option VideoMode
  | 0 => some .plot
  | 1 => some .clear
  | 2 => some .setX
  | 3 => some .setY
  | 4 => some .setD1
  | 5 => some .setD2
  | 6 => some .setD3
  | 7 => some .setD4
  | 8 => some .text
  | _ => none

/-- The number of framebuffer cells, `RASTER_W × RASTER_H` (10_state.md R32). -/
def frameCells (c : Config) : Nat := c.rasterW * c.rasterH

/-- `index(X, Y)` over unbounded integers, checked against the framebuffer's size and not per coordinate (R358, D9). -/
def frameIndex (c : Config) (v : Video) : Except ErrorKind Nat :=
  let i := v.x.toNat + v.y.toNat * c.rasterW
  if i < frameCells c then .ok i else .error .outOfBoundsCoordinate

/-- `write(data, plot)`: the cell at (X, Y) takes D1; the data byte is ignored (R351). -/
def videoPlot (c : Config) (v : Video) : Except ErrorKind Video :=
  match frameIndex c v with
  | .ok i => .ok { v with fb := v.fb.write i v.d1 }
  | .error k => .error k

/-- `write(data, mode)` (R351 to R356): the peripheral after the write, or the error, which changes nothing. -/
def videoWrite (c : Config) (mode : VideoMode) (data : Byte) (v : Video) : Except ErrorKind Video :=
  match mode with
  | .plot => videoPlot c v
  | .clear => .ok { v with fb := Memory.filled (frameCells c) v.d1 }
  | .setX => .ok { v with x := data }
  | .setY => .ok { v with y := data }
  | .setD1 => .ok { v with d1 := data }
  | .setD2 => .ok { v with d2 := data }
  | .setD3 => .ok { v with d3 := data }
  | .setD4 => .ok { v with d4 := data }
  | .text => .error .unimplementedMode

/-- `read(mode)`: only plot can be read; no read changes state (R357, D10). -/
def videoRead (c : Config) (mode : VideoMode) (v : Video) : Except ErrorKind Byte :=
  match mode with
  | .plot =>
    match frameIndex c v with
    | .ok i => .ok (v.fb.read i)
    | .error k => .error k
  | .clear | .setX | .setY | .setD1 | .setD2 | .setD3 | .setD4 | .text => .error .unreadableMode

end Sys2Proof.Machine
end

