-- ==== Sys2Proof/Machine/Ops.lean ====
section
/-! DEFINITION. The named operations over the state: field updates, the Memory Bus (20_memory.md), byte and word accesses,
the stack helpers (44_stack.md R241), the end of an instruction, the one operation by which a step faults, the privilege
check, and `reset()`, the only way back. -/

namespace Sys2Proof.Machine

/-- How a meaning ends. -/
abbrev Outcome := Host.Outcome State Fault Refusal

/-! Field updates, one per field. -/

def State.setPc (v : Word) (s : State) : State := { s with pc := v }
def State.setSp (v : Word) (s : State) : State := { s with sp := v }
def State.setA (v : Word) (s : State) : State := { s with a := v }
def State.setB (v : Word) (s : State) : State := { s with b := v }
def State.setI (v : Word) (s : State) : State := { s with i := v }
def State.setJ (v : Word) (s : State) : State := { s with j := v }
def State.setDr (v : Word) (s : State) : State := { s with dr := v }
def State.setSr (v : Byte) (s : State) : State := { s with sr := v }
def State.setIr (v : Byte) (s : State) : State := { s with ir := v }
def State.setEmh (v : Byte) (s : State) : State := { s with emh := v }
def State.setEml (v : Byte) (s : State) : State := { s with eml := v }
def State.setImh (v : Byte) (s : State) : State := { s with imh := v }
def State.setIml (v : Byte) (s : State) : State := { s with iml := v }
def State.setAr (v : Word) (s : State) : State := { s with ar := v }
def State.setRun (v : RunState) (s : State) : State := { s with run := v }
def State.setCur (v : Option Mnemonic) (s : State) : State := { s with cur := v }
def State.setMem (v : Memory) (s : State) : State := { s with mem := v }
def State.setVideo (v : Video) (s : State) : State := { s with video := v }
def State.setResult (v : Option StepResult) (s : State) : State := { s with result := v }

/-! The Memory Bus. -/

/-- What stands behind an address (20_memory.md R51): exactly one region per address (R50). -/
inductive Region where
  | rom
  | charMap
  | video (mode : VideoMode)
  | cartridge
  | ram
deriving DecidableEq, Repr

/-- `lo ≤ a ≤ hi`. -/
def inRange (lo hi a : Nat) : Bool := decide (lo ≤ a) && decide (a ≤ hi)

/-- The video mode of an address of the command port, none for any other address (R57). -/
def portMode (c : Config) (a : Nat) : Option VideoMode :=
  if c.videoBase ≤ a then videoModeAt (a - c.videoBase) else none

/-- Address decoding (R50, R51). The ranges are disjoint in a well-formed configuration, so the order does not matter. -/
def regionOf (c : Config) (a : Nat) : Region :=
  if inRange c.romLo c.romHi a then .rom
  else if inRange c.charLo c.charHi a then .charMap
  else
    match portMode c a with
    | some mode => .video mode
    | none => if inRange c.cartLo c.cartHi a then .cartridge else .ram

/-- `BusRead(a)` (R60): a port address goes to the peripheral, every other address reads MEM; nothing changes (R69). -/
def busRead (c : Config) (s : State) (a : Word) : Except ErrorKind Byte :=
  match regionOf c a.toNat with
  | .video mode => videoRead c mode s.video
  | .rom | .charMap | .cartridge | .ram => .ok (s.mem.read a.toNat)

/-- `BusWrite(a, b)` (R61): rejected in ROM and character map, a device command in the port, stored elsewhere. An error
changes nothing. -/
def busWrite (c : Config) (s : State) (a : Word) (b : Byte) : Except ErrorKind State :=
  match regionOf c a.toNat with
  | .rom | .charMap => .error .readOnlyRegionWrite
  | .video mode =>
    match videoWrite c mode b s.video with
    | .ok v => .ok (s.setVideo v)
    | .error k => .error k
  | .cartridge | .ram => .ok (s.setMem (s.mem.write a.toNat b))

/-! Accesses: a value with the state reached, or an error with the state the finished part left (R124). -/

/-- The outcome of part of an instruction. -/
inductive Access (α : Type) where
  | ok (v : α) (s : State)
  | err (k : ErrorKind) (s : State)
deriving Repr

/-- The rest of an instruction runs after a part that succeeded; an error ends the instruction where it stands, and every
write already performed stays (the abort rule, R124). -/
def Access.andThen {α β : Type} (p : Access α) (rest : α → State → Access β) : Access β :=
  match p with
  | .ok v s => rest v s
  | .err k s => .err k s

/-- `MemRead(a, 1)` (R7). -/
def readByte (c : Config) (a : Word) (s : State) : Access Byte :=
  match busRead c s a with
  | .ok b => .ok b s
  | .error k => .err k s

/-- `MemRead(a, 2)` (R64): the high byte at `a`, then the low byte at `a + 1` modulo 65536. -/
def readWord (c : Config) (a : Word) (s : State) : Access Word :=
  (readByte c a s).andThen fun h s =>
  (readByte c (a + 1#16) s).andThen fun l s => .ok (wordOf h l) s

/-- `MemWrite(a, 1, b)` (R7). -/
def writeByte (c : Config) (a : Word) (b : Byte) (s : State) : Access Unit :=
  match busWrite c s a b with
  | .ok t => .ok () t
  | .error k => .err k s

/-- `MemWrite(a, 2, v)` (R65): the high byte to `a`, then the low byte to `a + 1`; if only the second fails the first stays. -/
def writeWord (c : Config) (a : Word) (v : Word) (s : State) : Access Unit :=
  (writeByte c a (hiByte v) s).andThen fun _ s => writeByte c (a + 1#16) (loByte v) s

/-! The stack (44_stack.md R240, R241): ascending, SP at the first free byte. -/

/-- `push8(b)`: the byte at SP, then SP + 1; SP stays when the write fails. -/
def push8 (c : Config) (b : Byte) (s : State) : Access Unit :=
  (writeByte c s.sp b s).andThen fun _ s => .ok () (s.setSp (s.sp + 1#16))

/-- `push16(v)`: the high byte, then the low byte. -/
def push16 (c : Config) (v : Word) (s : State) : Access Unit :=
  (push8 c (hiByte v) s).andThen fun _ s => push8 c (loByte v) s

/-- `pop8()`: the byte at SP - 1; SP changes only after the read. -/
def pop8 (c : Config) (s : State) : Access Byte :=
  (readByte c (s.sp - 1#16) s).andThen fun b s => .ok b (s.setSp (s.sp - 1#16))

/-- `pop16()`: the low byte at SP - 1, then the high byte at SP - 2; SP changes only after both reads. -/
def pop16 (c : Config) (s : State) : Access Word :=
  (readByte c (s.sp - 1#16) s).andThen fun l s =>
  (readByte c (s.sp - 2#16) s).andThen fun h s => .ok (wordOf h l) (s.setSp (s.sp - 2#16))

/-! The end of a step. -/

/-- The end of an instruction: `Ok(mnemonic)`, or `Error(mnemonic, kind)` with RUN still Running (R111, R311). -/
def finish (m : Mnemonic) (p : Access Unit) : Outcome :=
  match p with
  | .ok _ s => .next (s.setResult (some (.ok m)))
  | .err k s => .next (s.setResult (some (.error m k)))

/-- `raise Fault(kind)` (R7, R310): RUN becomes Faulted and the step returns `Fault(kind)`. This is all that taking an
exception is on this machine: nothing is saved, no mode bit changes, PC stays where the step left it (R320). -/
def takeFault (k : ErrorKind) (s : State) : Outcome :=
  .next ((s.setRun .faulted).setResult (some (.fault k)))

/-- The privilege check of a privileged instruction (R115, R330): its effect in Supervisor mode, `Fault(PrivilegeFault)`
with no effect in User mode. -/
def privileged (s : State) (body : State → Outcome) : Outcome :=
  if getFlag .s s.sr then body s else takeFault .privilegeFault s

/-- `reset()` (R360 to R364), an action of the host: the only way out of Halted and Faulted and the only way back to
Supervisor mode (R362); there is no return from an error inside the program (R321). CUR, MEM and the video peripheral keep
their values. -/
def State.hostReset (c : Config) (s : State) : State :=
  { s with
    a := 0x0000#16, b := 0x0000#16, i := 0x0000#16, j := 0x0000#16, dr := 0x0000#16, sp := 0x0000#16
    ir := 0x00#8, emh := 0x00#8, eml := 0x00#8, imh := 0x00#8, iml := 0x00#8, ar := 0x0000#16
    pc := c.resetVector, sr := resetStatus s.sr, run := .running }

end Sys2Proof.Machine
end

