-- ==== Sys2Proof/Machine/Operands.lean ====
section
/-! DEFINITION. Operand forms: the registers an instruction names, effective addresses (40_step_and_addressing.md R118 to
R121), and the operand an instruction reads (R116, R117, R123). -/

namespace Sys2Proof.Machine

/-- The 16-bit registers an instruction can name (10_state.md R12). -/
inductive Reg16 where
  | a
  | b
  | i
  | j
  | dr
  | sp
deriving DecidableEq, Repr

/-- The half registers (10_state.md R15). -/
inductive Reg8 where
  | ah
  | al
  | bh
  | bl
deriving DecidableEq, Repr

def State.readReg16 (r : Reg16) (s : State) : Word :=
  match r with
  | .a => s.a
  | .b => s.b
  | .i => s.i
  | .j => s.j
  | .dr => s.dr
  | .sp => s.sp

def State.writeReg16 (r : Reg16) (v : Word) (s : State) : State :=
  match r with
  | .a => s.setA v
  | .b => s.setB v
  | .i => s.setI v
  | .j => s.setJ v
  | .dr => s.setDr v
  | .sp => s.setSp v

/-- Reading `AH` yields `A[15:8]`, `AL` yields `A[7:0]`; `BH`, `BL` likewise (R15). -/
def State.readReg8 (r : Reg8) (s : State) : Byte :=
  match r with
  | .ah => hiByte s.a
  | .al => loByte s.a
  | .bh => hiByte s.b
  | .bl => loByte s.b

/-- Writing one half leaves the other unchanged (R15). -/
def State.writeReg8 (r : Reg8) (v : Byte) (s : State) : State :=
  match r with
  | .ah => s.setA (wordOf v (loByte s.a))
  | .al => s.setA (wordOf (hiByte s.a) v)
  | .bh => s.setB (wordOf v (loByte s.b))
  | .bl => s.setB (wordOf (hiByte s.b) v)

/-- The memory modes. -/
inductive MemMode where
  | abs
  | absi
  | absj
  | ind
deriving DecidableEq, Repr

/-- EMH and EML take the two address bytes (R118 to R121). -/
def latchAddress (w : Word) (s : State) : State := (s.setEmh (hiByte w)).setEml (loByte w)

/-- Effective-address resolution: the latches and AR take the address (R118 to R121). In mode `IND` the two pointer reads
are data accesses, and AR is unchanged when one fails (R121). -/
def resolve (c : Config) (mode : MemMode) (w : Word) (s : State) : Access Unit :=
  match mode with
  | .abs => .ok () ((latchAddress w s).setAr w)
  | .absi => .ok () ((latchAddress w s).setAr (w + s.i))
  | .absj => .ok () ((latchAddress w s).setAr (w + s.j))
  | .ind => (readWord c w (latchAddress w s)).andThen fun p s => .ok () (s.setAr p)

/-- Where an 8-bit operand comes from: mode `IMM1`, or a byte in memory. -/
inductive Src8 where
  | imm (b : Byte)
  | mem (mode : MemMode) (w : Word)
deriving DecidableEq, Repr

/-- Where a 16-bit operand comes from: mode `IMM2`, or a word in memory. -/
inductive Src16 where
  | imm (w : Word)
  | mem (mode : MemMode) (w : Word)
deriving DecidableEq, Repr

/-- `opnd8` (R123): `IML` in mode `IMM1` (R116), `MemRead(AR, 1)` in a memory mode. -/
def operand8 (c : Config) (src : Src8) (s : State) : Access Byte :=
  match src with
  | .imm b => .ok b (s.setIml b)
  | .mem mode w => (resolve c mode w s).andThen fun _ s => readByte c s.ar s

/-- `opnd16` (R123): `IMH:IML` in mode `IMM2` (R117), `MemRead(AR, 2)` in a memory mode. -/
def operand16 (c : Config) (src : Src16) (s : State) : Access Word :=
  match src with
  | .imm w => .ok w ((s.setImh (hiByte w)).setIml (loByte w))
  | .mem mode w => (resolve c mode w s).andThen fun _ s => readWord c s.ar s

end Sys2Proof.Machine
end

