-- ==== Sys2Proof/Machine/Alu.lean ====
section
/-! DEFINITION. The arithmetic and logic instructions (43_alu.md R197 to R223). -/

namespace Sys2Proof.Machine

/-- The template of R199 at width 16: the operand is read before anything is written, then target and flags. -/
def alu16 (c : Config) (m : Mnemonic) (op : AluOp) (r : Reg16) (src : Src16) (s : State) : Outcome :=
  finish m ((operand16 c src s).andThen fun v s =>
    .ok () ((s.writeReg16 r (op.value (s.readReg16 r) v)).setSr (op.status (s.readReg16 r) v s.sr)))

/-- The template of R199 at width 8, on one half alone: no carry passes between halves (R198). -/
def alu8 (c : Config) (m : Mnemonic) (op : AluOp) (r : Reg8) (src : Src8) (s : State) : Outcome :=
  finish m ((operand8 c src s).andThen fun v s =>
    .ok () ((s.writeReg8 r (op.value (s.readReg8 r) v)).setSr (op.status (s.readReg8 r) v s.sr)))

/-- `ADD_16` or `SUB_16` with the constant operand 1 on an index register (R220 to R223). -/
def indexStep (m : Mnemonic) (op : AluOp) (r : Reg16) (s : State) : Outcome :=
  finish m (.ok ()
    ((s.writeReg16 r (op.value (s.readReg16 r) 1#16)).setSr (op.status (s.readReg16 r) 1#16 s.sr)))

/-- `add` in mode `IMM2`: add to accumulator A (16 bits) (R200). -/
def execAddImm2 (imm : Word) (s : State) : Outcome := alu16 Config.reference .add .add .a (.imm imm) s

/-- `add` in mode `ABS`: add to accumulator A (16 bits) (R200). -/
def execAddAbs (addr : Word) (s : State) : Outcome := alu16 Config.reference .add .add .a (.mem .abs addr) s

/-- `sub` in mode `IMM2`: subtract from accumulator A (16 bits) (R201). -/
def execSubImm2 (imm : Word) (s : State) : Outcome := alu16 Config.reference .sub .sub .a (.imm imm) s

/-- `sub` in mode `ABS`: subtract from accumulator A (16 bits) (R201). -/
def execSubAbs (addr : Word) (s : State) : Outcome := alu16 Config.reference .sub .sub .a (.mem .abs addr) s

/-- `and` in mode `IMM2`: bitwise AND into accumulator A (16 bits) (R202). -/
def execAndImm2 (imm : Word) (s : State) : Outcome := alu16 Config.reference .and .and .a (.imm imm) s

/-- `and` in mode `ABS`: bitwise AND into accumulator A (16 bits) (R202). -/
def execAndAbs (addr : Word) (s : State) : Outcome := alu16 Config.reference .and .and .a (.mem .abs addr) s

/-- `or` in mode `IMM2`: bitwise OR into accumulator A (16 bits) (R203). -/
def execOrImm2 (imm : Word) (s : State) : Outcome := alu16 Config.reference .or .or .a (.imm imm) s

/-- `or` in mode `ABS`: bitwise OR into accumulator A (16 bits) (R203). -/
def execOrAbs (addr : Word) (s : State) : Outcome := alu16 Config.reference .or .or .a (.mem .abs addr) s

/-- `addh` in mode `IMM1`: add to the high byte of A (8 bits) (R204). -/
def execAddhImm1 (imm : Byte) (s : State) : Outcome := alu8 Config.reference .addh .add .ah (.imm imm) s

/-- `addh` in mode `ABS`: add to the high byte of A (8 bits) (R204). -/
def execAddhAbs (addr : Word) (s : State) : Outcome := alu8 Config.reference .addh .add .ah (.mem .abs addr) s

/-- `addl` in mode `IMM1`: add to the low byte of A (8 bits) (R205). -/
def execAddlImm1 (imm : Byte) (s : State) : Outcome := alu8 Config.reference .addl .add .al (.imm imm) s

/-- `addl` in mode `ABS`: add to the low byte of A (8 bits) (R205). -/
def execAddlAbs (addr : Word) (s : State) : Outcome := alu8 Config.reference .addl .add .al (.mem .abs addr) s

/-- `subh` in mode `IMM1`: subtract from the high byte of A (8 bits) (R206). -/
def execSubhImm1 (imm : Byte) (s : State) : Outcome := alu8 Config.reference .subh .sub .ah (.imm imm) s

/-- `subh` in mode `ABS`: subtract from the high byte of A (8 bits) (R206). -/
def execSubhAbs (addr : Word) (s : State) : Outcome := alu8 Config.reference .subh .sub .ah (.mem .abs addr) s

/-- `subl` in mode `IMM1`: subtract from the low byte of A (8 bits) (R207). -/
def execSublImm1 (imm : Byte) (s : State) : Outcome := alu8 Config.reference .subl .sub .al (.imm imm) s

/-- `subl` in mode `ABS`: subtract from the low byte of A (8 bits) (R207). -/
def execSublAbs (addr : Word) (s : State) : Outcome := alu8 Config.reference .subl .sub .al (.mem .abs addr) s

/-- `andl` in mode `IMM1`: bitwise AND into the low byte of A (8 bits) (R208). -/
def execAndlImm1 (imm : Byte) (s : State) : Outcome := alu8 Config.reference .andl .and .al (.imm imm) s

/-- `andl` in mode `ABS`: bitwise AND into the low byte of A (8 bits) (R208). -/
def execAndlAbs (addr : Word) (s : State) : Outcome := alu8 Config.reference .andl .and .al (.mem .abs addr) s

/-- `orl` in mode `IMM1`: bitwise OR into the low byte of A (8 bits) (R209). -/
def execOrlImm1 (imm : Byte) (s : State) : Outcome := alu8 Config.reference .orl .or .al (.imm imm) s

/-- `orl` in mode `ABS`: bitwise OR into the low byte of A (8 bits) (R209). -/
def execOrlAbs (addr : Word) (s : State) : Outcome := alu8 Config.reference .orl .or .al (.mem .abs addr) s

/-- `addb` in mode `IMM2`: add to accumulator B (16 bits) (R210). -/
def execAddbImm2 (imm : Word) (s : State) : Outcome := alu16 Config.reference .addb .add .b (.imm imm) s

/-- `addb` in mode `ABS`: add to accumulator B (16 bits) (R210). -/
def execAddbAbs (addr : Word) (s : State) : Outcome := alu16 Config.reference .addb .add .b (.mem .abs addr) s

/-- `subb` in mode `IMM2`: subtract from accumulator B (16 bits) (R211). -/
def execSubbImm2 (imm : Word) (s : State) : Outcome := alu16 Config.reference .subb .sub .b (.imm imm) s

/-- `subb` in mode `ABS`: subtract from accumulator B (16 bits) (R211). -/
def execSubbAbs (addr : Word) (s : State) : Outcome := alu16 Config.reference .subb .sub .b (.mem .abs addr) s

/-- `andb` in mode `IMM2`: bitwise AND into accumulator B (16 bits) (R212). -/
def execAndbImm2 (imm : Word) (s : State) : Outcome := alu16 Config.reference .andb .and .b (.imm imm) s

/-- `andb` in mode `ABS`: bitwise AND into accumulator B (16 bits) (R212). -/
def execAndbAbs (addr : Word) (s : State) : Outcome := alu16 Config.reference .andb .and .b (.mem .abs addr) s

/-- `orb` in mode `IMM2`: bitwise OR into accumulator B (16 bits) (R213). -/
def execOrbImm2 (imm : Word) (s : State) : Outcome := alu16 Config.reference .orb .or .b (.imm imm) s

/-- `orb` in mode `ABS`: bitwise OR into accumulator B (16 bits) (R213). -/
def execOrbAbs (addr : Word) (s : State) : Outcome := alu16 Config.reference .orb .or .b (.mem .abs addr) s

/-- `addbh` in mode `IMM1`: add to the high byte of B (8 bits) (R214). -/
def execAddbhImm1 (imm : Byte) (s : State) : Outcome := alu8 Config.reference .addbh .add .bh (.imm imm) s

/-- `addbh` in mode `ABS`: add to the high byte of B (8 bits) (R214). -/
def execAddbhAbs (addr : Word) (s : State) : Outcome := alu8 Config.reference .addbh .add .bh (.mem .abs addr) s

/-- `addbl` in mode `IMM1`: add to the low byte of B (8 bits) (R215). -/
def execAddblImm1 (imm : Byte) (s : State) : Outcome := alu8 Config.reference .addbl .add .bl (.imm imm) s

/-- `addbl` in mode `ABS`: add to the low byte of B (8 bits) (R215). -/
def execAddblAbs (addr : Word) (s : State) : Outcome := alu8 Config.reference .addbl .add .bl (.mem .abs addr) s

/-- `subbh` in mode `IMM1`: subtract from the high byte of B (8 bits) (R216). -/
def execSubbhImm1 (imm : Byte) (s : State) : Outcome := alu8 Config.reference .subbh .sub .bh (.imm imm) s

/-- `subbh` in mode `ABS`: subtract from the high byte of B (8 bits) (R216). -/
def execSubbhAbs (addr : Word) (s : State) : Outcome := alu8 Config.reference .subbh .sub .bh (.mem .abs addr) s

/-- `subbl` in mode `IMM1`: subtract from the low byte of B (8 bits) (R217). -/
def execSubblImm1 (imm : Byte) (s : State) : Outcome := alu8 Config.reference .subbl .sub .bl (.imm imm) s

/-- `subbl` in mode `ABS`: subtract from the low byte of B (8 bits) (R217). -/
def execSubblAbs (addr : Word) (s : State) : Outcome := alu8 Config.reference .subbl .sub .bl (.mem .abs addr) s

/-- `andbl` in mode `IMM1`: bitwise AND into the low byte of B (8 bits) (R218). -/
def execAndblImm1 (imm : Byte) (s : State) : Outcome := alu8 Config.reference .andbl .and .bl (.imm imm) s

/-- `andbl` in mode `ABS`: bitwise AND into the low byte of B (8 bits) (R218). -/
def execAndblAbs (addr : Word) (s : State) : Outcome := alu8 Config.reference .andbl .and .bl (.mem .abs addr) s

/-- `orbl` in mode `IMM1`: bitwise OR into the low byte of B (8 bits) (R219). -/
def execOrblImm1 (imm : Byte) (s : State) : Outcome := alu8 Config.reference .orbl .or .bl (.imm imm) s

/-- `orbl` in mode `ABS`: bitwise OR into the low byte of B (8 bits) (R219). -/
def execOrblAbs (addr : Word) (s : State) : Outcome := alu8 Config.reference .orbl .or .bl (.mem .abs addr) s

/-- `ini` in mode `IMP`: increment index register I (16 bits) (R220). -/
def execIni (s : State) : Outcome := indexStep .ini .add .i s

/-- `dei` in mode `IMP`: decrement index register I (16 bits) (R221). -/
def execDei (s : State) : Outcome := indexStep .dei .sub .i s

/-- `inj` in mode `IMP`: increment index register J (16 bits) (R222). -/
def execInj (s : State) : Outcome := indexStep .inj .add .j s

/-- `dej` in mode `IMP`: decrement index register J (16 bits) (R223). -/
def execDej (s : State) : Outcome := indexStep .dej .sub .j s

end Sys2Proof.Machine
end

