-- ==== Sys2Proof/Machine/Control.lean ====
section
/-! DEFINITION. The control transfer instructions (45_control.md R255 to R269). -/

namespace Sys2Proof.Machine

/-- The `j*` family (R255): the address is resolved whether or not the jump is taken, then `if cond: PC <- AR`. -/
def jump (c : Config) (m : Mnemonic) (cond : Cond) (mode : MemMode) (w : Word) (s : State) : Outcome :=
  finish m ((resolve c mode w s).andThen fun _ s => .ok () (if cond.holds s.sr then s.setPc s.ar else s))

/-- `push16(PC); PC <- AR` (R267): PC is already the address of the next instruction. -/
def callTo (c : Config) (m : Mnemonic) (mode : MemMode) (w : Word) (s : State) : Outcome :=
  finish m ((resolve c mode w s).andThen fun _ s =>
    (push16 c s.pc s).andThen fun _ s => .ok () (s.setPc s.ar))

/-- `v <- pop16(); PC <- v` (R268). -/
def returnFrom (c : Config) (m : Mnemonic) (s : State) : Outcome :=
  finish m ((pop16 c s).andThen fun v s => .ok () (s.setPc v))

/-- `jmp` in mode `ABS`: unconditional jump (R256). -/
def execJmpAbs (addr : Word) (s : State) : Outcome := jump Config.reference .jmp .always .abs addr s

/-- `jmp` in mode `IND`: unconditional jump (R256). -/
def execJmpInd (ptr : Word) (s : State) : Outcome := jump Config.reference .jmp .always .ind ptr s

/-- `jeq` in mode `ABS`: jump if equal / zero (R257). -/
def execJeqAbs (addr : Word) (s : State) : Outcome := jump Config.reference .jeq .zero .abs addr s

/-- `jne` in mode `ABS`: jump if not equal / not zero (R258). -/
def execJneAbs (addr : Word) (s : State) : Outcome := jump Config.reference .jne .notZero .abs addr s

/-- `jcs` in mode `ABS`: jump if carry set (R259). -/
def execJcsAbs (addr : Word) (s : State) : Outcome := jump Config.reference .jcs .carry .abs addr s

/-- `jcc` in mode `ABS`: jump if carry clear (R260). -/
def execJccAbs (addr : Word) (s : State) : Outcome := jump Config.reference .jcc .notCarry .abs addr s

/-- `jns` in mode `ABS`: jump if negative set (R261). -/
def execJnsAbs (addr : Word) (s : State) : Outcome := jump Config.reference .jns .negative .abs addr s

/-- `jnc` in mode `ABS`: jump if negative clear (R262). -/
def execJncAbs (addr : Word) (s : State) : Outcome := jump Config.reference .jnc .notNegative .abs addr s

/-- `jos` in mode `ABS`: jump if overflow set (R263). -/
def execJosAbs (addr : Word) (s : State) : Outcome := jump Config.reference .jos .overflow .abs addr s

/-- `joc` in mode `ABS`: jump if overflow clear (R264). -/
def execJocAbs (addr : Word) (s : State) : Outcome := jump Config.reference .joc .notOverflow .abs addr s

/-- `jlt` in mode `ABS`: jump if N and O differ (R265). -/
def execJltAbs (addr : Word) (s : State) : Outcome := jump Config.reference .jlt .less .abs addr s

/-- `jge` in mode `ABS`: jump if N and O are equal (R266). -/
def execJgeAbs (addr : Word) (s : State) : Outcome := jump Config.reference .jge .greaterEqual .abs addr s

/-- `call` in mode `ABS`: call a subroutine (R267). -/
def execCallAbs (addr : Word) (s : State) : Outcome := callTo Config.reference .call .abs addr s

/-- `ret` in mode `IMP`: return from a subroutine (R268). -/
def execRet (s : State) : Outcome := returnFrom Config.reference .ret s

end Sys2Proof.Machine
end

