-- ==== Sys2Proof/Machine/Load.lean ====
section
/-! DEFINITION. The load instructions (41_load_store.md R140, R142 to R150). -/

namespace Sys2Proof.Machine

/-- `ld<r>` with a 16-bit target: the operand, then the register; no flag is written (R140). -/
def load16 (c : Config) (m : Mnemonic) (r : Reg16) (src : Src16) (s : State) : Outcome :=
  finish m ((operand16 c src s).andThen fun v s => .ok () (s.writeReg16 r v))

/-- `ld<r>` with a half register as its target; the other half is unchanged (R140). -/
def load8 (c : Config) (m : Mnemonic) (r : Reg8) (src : Src8) (s : State) : Outcome :=
  finish m ((operand8 c src s).andThen fun v s => .ok () (s.writeReg8 r v))

/-- `lda` in mode `IMM2`: load accumulator A (16 bits) (R142). -/
def execLdaImm2 (imm : Word) (s : State) : Outcome := load16 Config.reference .lda .a (.imm imm) s

/-- `lda` in mode `ABS`: load accumulator A (16 bits) (R142). -/
def execLdaAbs (addr : Word) (s : State) : Outcome := load16 Config.reference .lda .a (.mem .abs addr) s

/-- `lda` in mode `ABSI`: load accumulator A (16 bits) (R142). -/
def execLdaAbsi (base : Word) (s : State) : Outcome := load16 Config.reference .lda .a (.mem .absi base) s

/-- `lda` in mode `ABSJ`: load accumulator A (16 bits) (R142). -/
def execLdaAbsj (base : Word) (s : State) : Outcome := load16 Config.reference .lda .a (.mem .absj base) s

/-- `lda` in mode `IND`: load accumulator A (16 bits) (R142). -/
def execLdaInd (ptr : Word) (s : State) : Outcome := load16 Config.reference .lda .a (.mem .ind ptr) s

/-- `ldah` in mode `IMM1`: load the high byte of A (8 bits) (R143). -/
def execLdahImm1 (imm : Byte) (s : State) : Outcome := load8 Config.reference .ldah .ah (.imm imm) s

/-- `ldah` in mode `ABS`: load the high byte of A (8 bits) (R143). -/
def execLdahAbs (addr : Word) (s : State) : Outcome := load8 Config.reference .ldah .ah (.mem .abs addr) s

/-- `ldal` in mode `IMM1`: load the low byte of A (8 bits) (R144). -/
def execLdalImm1 (imm : Byte) (s : State) : Outcome := load8 Config.reference .ldal .al (.imm imm) s

/-- `ldal` in mode `ABS`: load the low byte of A (8 bits) (R144). -/
def execLdalAbs (addr : Word) (s : State) : Outcome := load8 Config.reference .ldal .al (.mem .abs addr) s

/-- `ldal` in mode `ABSI`: load the low byte of A (8 bits) (R144). -/
def execLdalAbsi (base : Word) (s : State) : Outcome := load8 Config.reference .ldal .al (.mem .absi base) s

/-- `ldal` in mode `ABSJ`: load the low byte of A (8 bits) (R144). -/
def execLdalAbsj (base : Word) (s : State) : Outcome := load8 Config.reference .ldal .al (.mem .absj base) s

/-- `ldal` in mode `IND`: load the low byte of A (8 bits) (R144). -/
def execLdalInd (ptr : Word) (s : State) : Outcome := load8 Config.reference .ldal .al (.mem .ind ptr) s

/-- `ldb` in mode `IMM2`: load accumulator B (16 bits) (R145). -/
def execLdbImm2 (imm : Word) (s : State) : Outcome := load16 Config.reference .ldb .b (.imm imm) s

/-- `ldb` in mode `ABS`: load accumulator B (16 bits) (R145). -/
def execLdbAbs (addr : Word) (s : State) : Outcome := load16 Config.reference .ldb .b (.mem .abs addr) s

/-- `ldbh` in mode `IMM1`: load the high byte of B (8 bits) (R146). -/
def execLdbhImm1 (imm : Byte) (s : State) : Outcome := load8 Config.reference .ldbh .bh (.imm imm) s

/-- `ldbh` in mode `ABS`: load the high byte of B (8 bits) (R146). -/
def execLdbhAbs (addr : Word) (s : State) : Outcome := load8 Config.reference .ldbh .bh (.mem .abs addr) s

/-- `ldbl` in mode `IMM1`: load the low byte of B (8 bits) (R147). -/
def execLdblImm1 (imm : Byte) (s : State) : Outcome := load8 Config.reference .ldbl .bl (.imm imm) s

/-- `ldbl` in mode `ABS`: load the low byte of B (8 bits) (R147). -/
def execLdblAbs (addr : Word) (s : State) : Outcome := load8 Config.reference .ldbl .bl (.mem .abs addr) s

/-- `ldi` in mode `IMM2`: load index register I (16 bits) (R148). -/
def execLdiImm2 (imm : Word) (s : State) : Outcome := load16 Config.reference .ldi .i (.imm imm) s

/-- `ldi` in mode `ABS`: load index register I (16 bits) (R148). -/
def execLdiAbs (addr : Word) (s : State) : Outcome := load16 Config.reference .ldi .i (.mem .abs addr) s

/-- `ldj` in mode `IMM2`: load index register J (16 bits) (R149). -/
def execLdjImm2 (imm : Word) (s : State) : Outcome := load16 Config.reference .ldj .j (.imm imm) s

/-- `ldj` in mode `ABS`: load index register J (16 bits) (R149). -/
def execLdjAbs (addr : Word) (s : State) : Outcome := load16 Config.reference .ldj .j (.mem .abs addr) s

/-- `ldsp` in mode `IMM2`: load the stack pointer (16 bits) (R150). -/
def execLdspImm2 (imm : Word) (s : State) : Outcome := load16 Config.reference .ldsp .sp (.imm imm) s

/-- `ldsp` in mode `ABS`: load the stack pointer (16 bits) (R150). -/
def execLdspAbs (addr : Word) (s : State) : Outcome := load16 Config.reference .ldsp .sp (.mem .abs addr) s

end Sys2Proof.Machine
end

