-- ==== Sys2Proof/Machine/Stack.lean ====
section
/-! DEFINITION. The stack instructions (44_stack.md R240 to R247). -/

namespace Sys2Proof.Machine

/-- `push16(r)` (R242, R244). -/
def push (c : Config) (m : Mnemonic) (r : Reg16) (s : State) : Outcome :=
  finish m (push16 c (s.readReg16 r) s)

/-- `v <- pop16(); r <- v` (R243, R245). -/
def pop (c : Config) (m : Mnemonic) (r : Reg16) (s : State) : Outcome :=
  finish m ((pop16 c s).andThen fun v s => .ok () (s.writeReg16 r v))

/-- `push8(SR)` (R246). -/
def pushStatus (c : Config) (m : Mnemonic) (s : State) : Outcome :=
  finish m (push8 c s.sr s)

/-- `b <- pop8(); SR <- b | 0x04` (R247). -/
def popStatus (c : Config) (m : Mnemonic) (s : State) : Outcome :=
  finish m ((pop8 c s).andThen fun b s => .ok () (s.setSr (statusOf b)))

/-- `psha` in mode `IMP`: push accumulator A (16 bits) (R242). -/
def execPsha (s : State) : Outcome := push Config.reference .psha .a s

/-- `popa` in mode `IMP`: pop accumulator A (16 bits) (R243). -/
def execPopa (s : State) : Outcome := pop Config.reference .popa .a s

/-- `pshb` in mode `IMP`: push accumulator B (16 bits) (R244). -/
def execPshb (s : State) : Outcome := push Config.reference .pshb .b s

/-- `popb` in mode `IMP`: pop accumulator B (16 bits) (R245). -/
def execPopb (s : State) : Outcome := pop Config.reference .popb .b s

/-- `pshsr` in mode `IMP`: push the status register (8 bits) (R246). -/
def execPshsr (s : State) : Outcome := pushStatus Config.reference .pshsr s

/-- `popsr` in mode `IMP`: pop the status register (8 bits) (R247). -/
def execPopsr (s : State) : Outcome := privileged s fun s => popStatus Config.reference .popsr s

end Sys2Proof.Machine
end

