-- ==== Sys2Proof/Machine/Store.lean ====
section
/-! DEFINITION. The store instructions (41_load_store.md R141, R151 to R158). -/

namespace Sys2Proof.Machine

/-- `st<r>` of a 16-bit register: `MemWrite(AR, 2, r)`, the high byte first (R141). -/
def store16 (c : Config) (m : Mnemonic) (r : Reg16) (mode : MemMode) (w : Word) (s : State) : Outcome :=
  finish m ((resolve c mode w s).andThen fun _ s => writeWord c s.ar (s.readReg16 r) s)

/-- `st<r>` of a half register: `MemWrite(AR, 1, r)` (R141). -/
def store8 (c : Config) (m : Mnemonic) (r : Reg8) (mode : MemMode) (w : Word) (s : State) : Outcome :=
  finish m ((resolve c mode w s).andThen fun _ s => writeByte c s.ar (s.readReg8 r) s)

/-- `sta` in mode `ABS`: store accumulator A (16 bits) (R151). -/
def execStaAbs (addr : Word) (s : State) : Outcome := store16 Config.reference .sta .a .abs addr s

/-- `sta` in mode `ABSI`: store accumulator A (16 bits) (R151). -/
def execStaAbsi (base : Word) (s : State) : Outcome := store16 Config.reference .sta .a .absi base s

/-- `sta` in mode `ABSJ`: store accumulator A (16 bits) (R151). -/
def execStaAbsj (base : Word) (s : State) : Outcome := store16 Config.reference .sta .a .absj base s

/-- `sta` in mode `IND`: store accumulator A (16 bits) (R151). -/
def execStaInd (ptr : Word) (s : State) : Outcome := store16 Config.reference .sta .a .ind ptr s

/-- `stah` in mode `ABS`: store the high byte of A (8 bits) (R152). -/
def execStahAbs (addr : Word) (s : State) : Outcome := store8 Config.reference .stah .ah .abs addr s

/-- `stal` in mode `ABS`: store the low byte of A (8 bits) (R153). -/
def execStalAbs (addr : Word) (s : State) : Outcome := store8 Config.reference .stal .al .abs addr s

/-- `stal` in mode `ABSI`: store the low byte of A (8 bits) (R153). -/
def execStalAbsi (base : Word) (s : State) : Outcome := store8 Config.reference .stal .al .absi base s

/-- `stal` in mode `ABSJ`: store the low byte of A (8 bits) (R153). -/
def execStalAbsj (base : Word) (s : State) : Outcome := store8 Config.reference .stal .al .absj base s

/-- `stal` in mode `IND`: store the low byte of A (8 bits) (R153). -/
def execStalInd (ptr : Word) (s : State) : Outcome := store8 Config.reference .stal .al .ind ptr s

/-- `stb` in mode `ABS`: store accumulator B (16 bits) (R154). -/
def execStbAbs (addr : Word) (s : State) : Outcome := store16 Config.reference .stb .b .abs addr s

/-- `stbh` in mode `ABS`: store the high byte of B (8 bits) (R155). -/
def execStbhAbs (addr : Word) (s : State) : Outcome := store8 Config.reference .stbh .bh .abs addr s

/-- `stbl` in mode `ABS`: store the low byte of B (8 bits) (R156). -/
def execStblAbs (addr : Word) (s : State) : Outcome := store8 Config.reference .stbl .bl .abs addr s

/-- `sti` in mode `ABS`: store index register I (16 bits) (R157). -/
def execStiAbs (addr : Word) (s : State) : Outcome := store16 Config.reference .sti .i .abs addr s

/-- `stj` in mode `ABS`: store index register J (16 bits) (R158). -/
def execStjAbs (addr : Word) (s : State) : Outcome := store16 Config.reference .stj .j .abs addr s

end Sys2Proof.Machine
end

