-- ==== Sys2Proof/Machine/System.lean ====
section
/-! DEFINITION. The flag, system and privileged instructions (46_flag_system.md R280 to R290). -/

namespace Sys2Proof.Machine

/-- One flag written, every other bit of SR unchanged (R280 to R287). -/
def writeFlag (m : Mnemonic) (f : Flag) (v : Bool) (s : State) : Outcome :=
  finish m (.ok () (s.setSr (setFlag f v s.sr)))

/-- No operation (R288). -/
def noOperation (m : Mnemonic) (s : State) : Outcome := finish m (.ok () s)

/-- `RUN <- Halted` (R289). -/
def haltCore (m : Mnemonic) (s : State) : Outcome := finish m (.ok () (s.setRun .halted))

/-- `nop` in mode `IMP`: no operation (R288). -/
def execNop (s : State) : Outcome := noOperation .nop s

/-- `halt` in mode `IMP`: stop the core (R289). -/
def execHalt (s : State) : Outcome := privileged s fun s => haltCore .halt s

/-- `clc` in mode `IMP`: clear the Carry flag (R280). -/
def execClc (s : State) : Outcome := writeFlag .clc .c false s

/-- `sec` in mode `IMP`: set the Carry flag (R281). -/
def execSec (s : State) : Outcome := writeFlag .sec .c true s

/-- `clo` in mode `IMP`: clear the Overflow flag (R282). -/
def execClo (s : State) : Outcome := writeFlag .clo .o false s

/-- `cld` in mode `IMP`: clear the Debug/Decimal flag (R283). -/
def execCld (s : State) : Outcome := writeFlag .cld .d false s

/-- `sed` in mode `IMP`: set the Debug/Decimal flag (R284). -/
def execSed (s : State) : Outcome := writeFlag .sed .d true s

/-- `cli` in mode `IMP`: clear the InterruptDisable flag (R285). -/
def execCli (s : State) : Outcome := privileged s fun s => writeFlag .cli .i false s

/-- `sei` in mode `IMP`: set the InterruptDisable flag (R286). -/
def execSei (s : State) : Outcome := privileged s fun s => writeFlag .sei .i true s

/-- `cls` in mode `IMP`: clear the Supervisor flag (enter User mode) (R287). -/
def execCls (s : State) : Outcome := privileged s fun s => writeFlag .cls .s false s

end Sys2Proof.Machine
end

