-- ==== Sys2Proof/Machine/Transfer.lean ====
section
/-! DEFINITION. The register transfer instructions (42_transfer.md R170 to R182). -/

namespace Sys2Proof.Machine

/-- `t<s><d>`: the source register's 16 bits to the destination register; no flag is written (R170). -/
def transfer (m : Mnemonic) (src dst : Reg16) (s : State) : Outcome :=
  finish m (.ok () (s.writeReg16 dst (s.readReg16 src)))

/-- `SR <- AL | 0x04` (R181). -/
def transferToSr (m : Mnemonic) (s : State) : Outcome :=
  finish m (.ok () (s.setSr (statusOf (s.readReg8 .al))))

/-- `AL <- SR` (R182). -/
def transferFromSr (m : Mnemonic) (s : State) : Outcome :=
  finish m (.ok () (s.writeReg8 .al s.sr))

/-- `tab` in mode `IMP`: transfer accumulator A to accumulator B (16 bits) (R171). -/
def execTab (s : State) : Outcome := transfer .tab .a .b s

/-- `tba` in mode `IMP`: transfer accumulator B to accumulator A (16 bits) (R172). -/
def execTba (s : State) : Outcome := transfer .tba .b .a s

/-- `tai` in mode `IMP`: transfer accumulator A to index register I (16 bits) (R173). -/
def execTai (s : State) : Outcome := transfer .tai .a .i s

/-- `tia` in mode `IMP`: transfer index register I to accumulator A (16 bits) (R174). -/
def execTia (s : State) : Outcome := transfer .tia .i .a s

/-- `taj` in mode `IMP`: transfer accumulator A to index register J (16 bits) (R175). -/
def execTaj (s : State) : Outcome := transfer .taj .a .j s

/-- `tja` in mode `IMP`: transfer index register J to accumulator A (16 bits) (R176). -/
def execTja (s : State) : Outcome := transfer .tja .j .a s

/-- `tad` in mode `IMP`: transfer accumulator A to the data register (16 bits) (R177). -/
def execTad (s : State) : Outcome := transfer .tad .a .dr s

/-- `tda` in mode `IMP`: transfer the data register to accumulator A (16 bits) (R178). -/
def execTda (s : State) : Outcome := transfer .tda .dr .a s

/-- `tasp` in mode `IMP`: transfer accumulator A to the stack pointer (16 bits) (R179). -/
def execTasp (s : State) : Outcome := transfer .tasp .a .sp s

/-- `tspa` in mode `IMP`: transfer the stack pointer to accumulator A (16 bits) (R180). -/
def execTspa (s : State) : Outcome := transfer .tspa .sp .a s

/-- `tasr` in mode `IMP`: transfer the low byte of A to the status register (8 bits) (R181). -/
def execTasr (s : State) : Outcome := privileged s fun s => transferToSr .tasr s

/-- `tsra` in mode `IMP`: transfer the status register to the low byte of A (8 bits) (R182). -/
def execTsra (s : State) : Outcome := transferFromSr .tsra s

end Sys2Proof.Machine
end

