-- ==== Sys2Proof/Machine/Dispatch.lean ====
section
/-! DEFINITION. `exec`: one arm per instruction, each one direct call of its meaning. The state is the one after the fetch
of the instruction's bytes: `pc` is the address of the next sequential instruction (10_state.md R13; log 6). -/

namespace Sys2Proof.Machine

def exec (i : Instr) (s : State) : Host.Outcome State Fault Refusal :=
  match i with
  -- 46_flag_system.md
  | .nop => Sys2Proof.Machine.execNop s
  | .halt => Sys2Proof.Machine.execHalt s
  | .clc => Sys2Proof.Machine.execClc s
  | .sec => Sys2Proof.Machine.execSec s
  | .clo => Sys2Proof.Machine.execClo s
  | .cld => Sys2Proof.Machine.execCld s
  | .sed => Sys2Proof.Machine.execSed s
  | .cli => Sys2Proof.Machine.execCli s
  | .sei => Sys2Proof.Machine.execSei s
  | .cls => Sys2Proof.Machine.execCls s
  -- 41_load_store.md, loads
  | .ldaImm2 imm => Sys2Proof.Machine.execLdaImm2 imm s
  | .ldaAbs addr => Sys2Proof.Machine.execLdaAbs addr s
  | .ldaAbsi base => Sys2Proof.Machine.execLdaAbsi base s
  | .ldaAbsj base => Sys2Proof.Machine.execLdaAbsj base s
  | .ldaInd ptr => Sys2Proof.Machine.execLdaInd ptr s
  | .ldahImm1 imm => Sys2Proof.Machine.execLdahImm1 imm s
  | .ldahAbs addr => Sys2Proof.Machine.execLdahAbs addr s
  | .ldalImm1 imm => Sys2Proof.Machine.execLdalImm1 imm s
  | .ldalAbs addr => Sys2Proof.Machine.execLdalAbs addr s
  | .ldalAbsi base => Sys2Proof.Machine.execLdalAbsi base s
  | .ldalAbsj base => Sys2Proof.Machine.execLdalAbsj base s
  | .ldalInd ptr => Sys2Proof.Machine.execLdalInd ptr s
  | .ldbImm2 imm => Sys2Proof.Machine.execLdbImm2 imm s
  | .ldbAbs addr => Sys2Proof.Machine.execLdbAbs addr s
  | .ldbhImm1 imm => Sys2Proof.Machine.execLdbhImm1 imm s
  | .ldbhAbs addr => Sys2Proof.Machine.execLdbhAbs addr s
  | .ldblImm1 imm => Sys2Proof.Machine.execLdblImm1 imm s
  | .ldblAbs addr => Sys2Proof.Machine.execLdblAbs addr s
  | .ldiImm2 imm => Sys2Proof.Machine.execLdiImm2 imm s
  | .ldiAbs addr => Sys2Proof.Machine.execLdiAbs addr s
  | .ldjImm2 imm => Sys2Proof.Machine.execLdjImm2 imm s
  | .ldjAbs addr => Sys2Proof.Machine.execLdjAbs addr s
  | .ldspImm2 imm => Sys2Proof.Machine.execLdspImm2 imm s
  | .ldspAbs addr => Sys2Proof.Machine.execLdspAbs addr s
  -- 41_load_store.md, stores
  | .staAbs addr => Sys2Proof.Machine.execStaAbs addr s
  | .staAbsi base => Sys2Proof.Machine.execStaAbsi base s
  | .staAbsj base => Sys2Proof.Machine.execStaAbsj base s
  | .staInd ptr => Sys2Proof.Machine.execStaInd ptr s
  | .stahAbs addr => Sys2Proof.Machine.execStahAbs addr s
  | .stalAbs addr => Sys2Proof.Machine.execStalAbs addr s
  | .stalAbsi base => Sys2Proof.Machine.execStalAbsi base s
  | .stalAbsj base => Sys2Proof.Machine.execStalAbsj base s
  | .stalInd ptr => Sys2Proof.Machine.execStalInd ptr s
  | .stbAbs addr => Sys2Proof.Machine.execStbAbs addr s
  | .stbhAbs addr => Sys2Proof.Machine.execStbhAbs addr s
  | .stblAbs addr => Sys2Proof.Machine.execStblAbs addr s
  | .stiAbs addr => Sys2Proof.Machine.execStiAbs addr s
  | .stjAbs addr => Sys2Proof.Machine.execStjAbs addr s
  -- 42_transfer.md
  | .tab => Sys2Proof.Machine.execTab s
  | .tba => Sys2Proof.Machine.execTba s
  | .tai => Sys2Proof.Machine.execTai s
  | .tia => Sys2Proof.Machine.execTia s
  | .taj => Sys2Proof.Machine.execTaj s
  | .tja => Sys2Proof.Machine.execTja s
  | .tad => Sys2Proof.Machine.execTad s
  | .tda => Sys2Proof.Machine.execTda s
  | .tasp => Sys2Proof.Machine.execTasp s
  | .tspa => Sys2Proof.Machine.execTspa s
  | .tasr => Sys2Proof.Machine.execTasr s
  | .tsra => Sys2Proof.Machine.execTsra s
  -- 43_alu.md, on A
  | .addImm2 imm => Sys2Proof.Machine.execAddImm2 imm s
  | .addAbs addr => Sys2Proof.Machine.execAddAbs addr s
  | .subImm2 imm => Sys2Proof.Machine.execSubImm2 imm s
  | .subAbs addr => Sys2Proof.Machine.execSubAbs addr s
  | .andImm2 imm => Sys2Proof.Machine.execAndImm2 imm s
  | .andAbs addr => Sys2Proof.Machine.execAndAbs addr s
  | .orImm2 imm => Sys2Proof.Machine.execOrImm2 imm s
  | .orAbs addr => Sys2Proof.Machine.execOrAbs addr s
  | .addhImm1 imm => Sys2Proof.Machine.execAddhImm1 imm s
  | .addhAbs addr => Sys2Proof.Machine.execAddhAbs addr s
  | .addlImm1 imm => Sys2Proof.Machine.execAddlImm1 imm s
  | .addlAbs addr => Sys2Proof.Machine.execAddlAbs addr s
  | .subhImm1 imm => Sys2Proof.Machine.execSubhImm1 imm s
  | .subhAbs addr => Sys2Proof.Machine.execSubhAbs addr s
  | .sublImm1 imm => Sys2Proof.Machine.execSublImm1 imm s
  | .sublAbs addr => Sys2Proof.Machine.execSublAbs addr s
  | .andlImm1 imm => Sys2Proof.Machine.execAndlImm1 imm s
  | .andlAbs addr => Sys2Proof.Machine.execAndlAbs addr s
  | .orlImm1 imm => Sys2Proof.Machine.execOrlImm1 imm s
  | .orlAbs addr => Sys2Proof.Machine.execOrlAbs addr s
  -- 43_alu.md, on B
  | .addbImm2 imm => Sys2Proof.Machine.execAddbImm2 imm s
  | .addbAbs addr => Sys2Proof.Machine.execAddbAbs addr s
  | .subbImm2 imm => Sys2Proof.Machine.execSubbImm2 imm s
  | .subbAbs addr => Sys2Proof.Machine.execSubbAbs addr s
  | .andbImm2 imm => Sys2Proof.Machine.execAndbImm2 imm s
  | .andbAbs addr => Sys2Proof.Machine.execAndbAbs addr s
  | .orbImm2 imm => Sys2Proof.Machine.execOrbImm2 imm s
  | .orbAbs addr => Sys2Proof.Machine.execOrbAbs addr s
  | .addbhImm1 imm => Sys2Proof.Machine.execAddbhImm1 imm s
  | .addbhAbs addr => Sys2Proof.Machine.execAddbhAbs addr s
  | .addblImm1 imm => Sys2Proof.Machine.execAddblImm1 imm s
  | .addblAbs addr => Sys2Proof.Machine.execAddblAbs addr s
  | .subbhImm1 imm => Sys2Proof.Machine.execSubbhImm1 imm s
  | .subbhAbs addr => Sys2Proof.Machine.execSubbhAbs addr s
  | .subblImm1 imm => Sys2Proof.Machine.execSubblImm1 imm s
  | .subblAbs addr => Sys2Proof.Machine.execSubblAbs addr s
  | .andblImm1 imm => Sys2Proof.Machine.execAndblImm1 imm s
  | .andblAbs addr => Sys2Proof.Machine.execAndblAbs addr s
  | .orblImm1 imm => Sys2Proof.Machine.execOrblImm1 imm s
  | .orblAbs addr => Sys2Proof.Machine.execOrblAbs addr s
  -- 43_alu.md, index registers
  | .ini => Sys2Proof.Machine.execIni s
  | .dei => Sys2Proof.Machine.execDei s
  | .inj => Sys2Proof.Machine.execInj s
  | .dej => Sys2Proof.Machine.execDej s
  -- 44_stack.md
  | .psha => Sys2Proof.Machine.execPsha s
  | .popa => Sys2Proof.Machine.execPopa s
  | .pshb => Sys2Proof.Machine.execPshb s
  | .popb => Sys2Proof.Machine.execPopb s
  | .pshsr => Sys2Proof.Machine.execPshsr s
  | .popsr => Sys2Proof.Machine.execPopsr s
  -- 45_control.md
  | .jmpAbs addr => Sys2Proof.Machine.execJmpAbs addr s
  | .jmpInd ptr => Sys2Proof.Machine.execJmpInd ptr s
  | .jeqAbs addr => Sys2Proof.Machine.execJeqAbs addr s
  | .jneAbs addr => Sys2Proof.Machine.execJneAbs addr s
  | .jcsAbs addr => Sys2Proof.Machine.execJcsAbs addr s
  | .jccAbs addr => Sys2Proof.Machine.execJccAbs addr s
  | .jnsAbs addr => Sys2Proof.Machine.execJnsAbs addr s
  | .jncAbs addr => Sys2Proof.Machine.execJncAbs addr s
  | .josAbs addr => Sys2Proof.Machine.execJosAbs addr s
  | .jocAbs addr => Sys2Proof.Machine.execJocAbs addr s
  | .jltAbs addr => Sys2Proof.Machine.execJltAbs addr s
  | .jgeAbs addr => Sys2Proof.Machine.execJgeAbs addr s
  | .callAbs addr => Sys2Proof.Machine.execCallAbs addr s
  | .ret => Sys2Proof.Machine.execRet s

end Sys2Proof.Machine
end

