-- ==== Sys2Proof/Machine/Fetch.lean ====
section
/-! DEFINITION. The common part of every step (40_step_and_addressing.md R112): opcode fetch, lookup, privilege check,
operand fetch, and the errors each can end in (R113 to R115, R126, R127). -/

namespace Sys2Proof.Machine

/-- The byte at PC, and PC one past it; PC stays when the fetch fails (R112, R113). -/
def fetchByte (c : Config) (s : State) : Access Byte :=
  (readByte c s.pc s).andThen fun b s => .ok b (s.setPc (s.pc + 1#16))

/-- The operand bytes of a mode, each latched as it arrives, so that the bytes before a failing one stay latched
(R113, R116 to R122). The operand is `hi:lo`, or the one immediate byte below a zero byte. -/
def fetchOperand (c : Config) (mode : AddrMode) (s : State) : Access Word :=
  match mode with
  | .imp => .ok 0x0000#16 s
  | .imm1 => (fetchByte c s).andThen fun b s => .ok (wordOf 0x00#8 b) (s.setIml b)
  | .imm2 =>
    (fetchByte c s).andThen fun h s =>
    (fetchByte c (s.setImh h)).andThen fun l s => .ok (wordOf h l) (s.setIml l)
  | .abs | .absi | .absj | .ind =>
    (fetchByte c s).andThen fun h s =>
    (fetchByte c (s.setEmh h)).andThen fun l s => .ok (wordOf h l) (s.setEml l)

/-- One `step()` (R112) over a table: `find` gives an opcode's descriptor and the operation that runs once the operand is
fetched. The privilege check stands before the operand fetch (R115); an instruction's own meaning checks again, so that
it is right by itself (log 6). -/
def cycle (c : Config) (find : Byte → Option (Descriptor × (Word → State → Outcome))) (s : State) : Outcome :=
  match s.run with
  | .halted => .next (s.setResult (some (.stopped .halted)))
  | .faulted => .next (s.setResult (some (.stopped .faulted)))
  | .running =>
    match fetchByte c s with
    | .err k s => takeFault k s
    | .ok op s =>
      match find op with
      | none => takeFault .unrecognizedOpcode (s.setIr op)
      | some (d, operation) =>
        let s := (s.setIr op).setCur (some d.mnemonic)
        if d.needsPrivilege && !getFlag .s s.sr then takeFault .privilegeFault s
        else
          match fetchOperand c d.mode s with
          | .err k s => takeFault k s
          | .ok w s => operation w s

end Sys2Proof.Machine
end

