-- ==== Sys2Proof/Machine/Placement.lean ====
section
/-! DEFINITION. Placing bytes where the next step fetches: what the host's setup does when it installs an image
(20_memory.md R56), here for the bytes of one instruction. -/

namespace Sys2Proof.Machine

/-- No byte of the longest instruction at `pc` lies in the video command port, where MEM has no byte (10_state.md R31). -/
def fetchesMemory (c : Config) (pc : Word) : Bool :=
  (portMode c pc.toNat).isNone && (portMode c (pc + 1#16).toNat).isNone && (portMode c (pc + 2#16).toNat).isNone

/-- Where the bytes go: at PC, or at 0x0000 when the port is in the way (log 8). -/
def placementSite (c : Config) (pc : Word) : Word := if fetchesMemory c pc then pc else 0x0000#16

/-- The bytes stored from `a` on, across the top of memory (R128), in ROM too: this is the host, not a bus write. -/
def placeBytes (a : Word) (bs : List Byte) (m : Memory) : Memory :=
  match bs with
  | [] => m
  | b :: bs => placeBytes (a + 1#16) bs (m.write a.toNat b)

/-- `s` with `bs` placed where its next step fetches, and the core Running so that it does fetch. -/
def placeProgram (s : State) (bs : List Byte) : State :=
  let site := placementSite Config.reference s.pc
  ((s.setPc site).setRun .running).setMem (placeBytes site bs s.mem)

end Sys2Proof.Machine
end

