-- ==== Sys2Proof/Machine/Step.lean ====
section
/-! DEFINITION. `step`: the cycle of R112 over the reference table, its operations the meanings `exec` dispatches to; and
`withFetchWord`, which places an instruction where the next step fetches. -/

namespace Sys2Proof.Machine

/-- A reference row as `cycle` reads it: the descriptor, and `exec` of the instruction the operand completes. -/
def operationOf (e : Entry) : Descriptor × (Word → State → Outcome) := (e.desc, fun w s => exec (e.build w) s)

/-- One step of the reference machine (R110, R112). -/
def step (s : State) : Host.Outcome State Fault Refusal :=
  cycle Config.reference (fun op => (findEntry op).map operationOf) s

/-- `s` with the instruction of an opcode-table word where its next step fetches it (Machine/Placement.lean; log 8). -/
def State.withFetchWord (s : State) (nbits w : Nat) : State := placeProgram s (tableBytes nbits w)

end Sys2Proof.Machine
end

