-- ==== Sys2Proof/Machine/Boot.lean ====
section
/-! DEFINITION. Power-on, setup and the first `reset()` (10_state.md R41, 20_memory.md R56, 70_reset_and_hazards.md R365):
the machine as a function of the inputs the spec leaves open. There is no state before the first reset, so no step can
precede it (R41, U26; log 10). -/

namespace Sys2Proof.Machine

/-- The inputs of power-on and setup (R5, R41, R56). -/
structure PowerOn where
  /-- RAM_INIT: the bytes of the RAM-like addresses. -/
  ramInit : Memory
  /-- ROM_IMAGE. -/
  romImage : List Byte
  /-- CHAR_IMAGE. -/
  charImage : List Byte
  /-- CART_IMAGE, used when a cartridge is present. -/
  cartImage : List Byte
  /-- LATCH_INIT and FB_INIT. -/
  video : Video
  /-- POWERON_I. -/
  flagI : Bool
  /-- POWERON_D. -/
  flagD : Bool
deriving DecidableEq, Repr

/-- The number of addresses of an inclusive range. -/
def rangeSize (lo hi : Nat) : Nat := hi + 1 - lo

/-- Each image is exactly as long as its region (R56, D23). -/
def PowerOn.imagesFit (c : Config) (p : PowerOn) : Bool :=
  p.romImage.length == rangeSize c.romLo c.romHi && p.charImage.length == rangeSize c.charLo c.charHi &&
  (!c.cartPresent || p.cartImage.length == rangeSize c.cartLo c.cartHi)

/-- Whether an index is an address of RAM or of the cartridge range. -/
def isRamLike (c : Config) (a : Nat) : Bool :=
  match regionOf c a with
  | .ram | .cartridge => decide (a < 65536)
  | .rom | .charMap | .video _ => false

/-- The power-on bytes are canonical and lie where such bytes exist. -/
def PowerOn.contentsFit (c : Config) (p : PowerOn) : Bool :=
  p.ramInit.wf && p.ramInit.all (fun cell => isRamLike c cell.1) && p.video.fb.wf && p.video.fb.below (frameCells c)

/-- MEM after setup: RAM_INIT, then the images at their regions, the cartridge's only when one is present (R55, R56). -/
def PowerOn.memory (c : Config) (p : PowerOn) : Memory :=
  let m := (p.ramInit.place c.romLo p.romImage).place c.charLo p.charImage
  if c.cartPresent then m.place c.cartLo p.cartImage else m

/-- SR before the first reset: the reserved bit set, I and D as given (R41, D28). -/
def PowerOn.status (p : PowerOn) : Byte := setFlag .i p.flagI (setFlag .d p.flagD 0x04#8)

/-- The machine after power-on, setup and the first `reset()` (R365). The registers that reset writes need no power-on
value (R41), so they are taken from `State.reset`. -/
def boot (c : Config) (p : PowerOn) : Except Refusal State :=
  if !c.wellFormed then .error .badConfig
  else if !p.imagesFit c then .error .badImage
  else if !p.contentsFit c then .error .badContents
  else .ok ((((State.reset.setSr p.status).setMem (p.memory c)).setVideo p.video).hostReset c)

end Sys2Proof.Machine
end

