-- ==== Sys2Proof/Machine/HostAgent.lean ====
section
/-! DEFINITION. What the host does with the core and sees of it (60_exceptions.md R340 to R347): the status record, the
current instruction, the stepping loops and their stop conditions, error codes, and what a display refresh may sample
(20_memory.md R73). -/

namespace Sys2Proof.Machine

/-- The codes of the error kinds; they stand nowhere in the machine (R301, D11). -/
def ErrorKind.code : ErrorKind → Nat
  | .unrecognizedOpcode => 1
  | .privilegeFault => 2
  | .unimplementedMode => 3
  | .outOfBoundsCoordinate => 4
  | .readOnlyRegionWrite => 5
  | .unreadableMode => 6

/-- The content of the CPU-status record: every register of 10_state.md R12 (R346). Its layout is presentation. -/
structure CpuStatus where
  pc : Word
  sp : Word
  a : Word
  b : Word
  i : Word
  j : Word
  dr : Word
  sr : Byte
  ir : Byte
  emh : Byte
  eml : Byte
  imh : Byte
  iml : Byte
  ar : Word
deriving DecidableEq, Repr

/-- `getCpuStatus()`: a read-only snapshot (R30, R340). -/
def cpuStatus (s : State) : CpuStatus where
  pc := s.pc
  sp := s.sp
  a := s.a
  b := s.b
  i := s.i
  j := s.j
  dr := s.dr
  sr := s.sr
  ir := s.ir
  emh := s.emh
  eml := s.eml
  imh := s.imh
  iml := s.iml
  ar := s.ar

/-- `getCurrentInstruction()`: the mnemonic of CUR as the table spells it, or none before any (R29, R103, R340). -/
def currentInstruction (s : State) : Option String := s.cur.map Mnemonic.text

/-- The mnemonic a step returns: with `Ok` and with `Error`, not with `Fault` or `Stopped` (R111, R342, R347). -/
def StepResult.mnemonic : StepResult → Option Mnemonic
  | .ok m => some m
  | .error m _ => some m
  | .fault _ => none
  | .stopped _ => none

/-- The "defined jump mnemonics" on which `nj` stops (30_encoding.md R102). -/
def Mnemonic.isJump : Mnemonic → Bool
  | .jmp | .jeq | .jne | .jcs | .jcc | .jns | .jnc | .jos | .joc | .jlt | .jge => true
  | _ => false

/-- Whether a stepping loop ends after a step with this result: on a mnemonic its predicate accepts, and on every result
that carries no mnemonic, `Fault` and `Stopped` (R341, R342). -/
def loopEnds (stop : Mnemonic → Bool) (r : Option StepResult) : Bool :=
  match r.bind StepResult.mnemonic with
  | some m => stop m
  | none => true

/-- A stepping loop that the environment cancels after at most `n` whole steps (R343): the states after each step, the
last one first to end it. -/
def stepLoop (stop : Mnemonic → Bool) : Nat → State → List State
  | 0, _ => []
  | n + 1, s =>
    match step s with
    | .next t => if loopEnds stop t.result then [t] else t :: stepLoop stop n t
    | .fault _ => []
    | .refused _ => []

/-- The debugger's commands (R341). -/
inductive Command where
  /-- `reset`, `res`. -/
  | reset
  /-- `ni`, `next instruction`. -/
  | ni
  /-- `nj`, `next jump`. -/
  | nj
  /-- `nr`, `next return`. -/
  | nr
  /-- `run`. -/
  | run
  /-- `help`, `exit`, anything else: no host operation. -/
  | other
deriving DecidableEq, Repr

/-- One of the four operations by which the host drives the core, with what it leaves or answers (R340). -/
inductive HostOperation where
  /-- `reset()`, and the state after it. -/
  | reset (after : State)
  /-- `step()`, and the state after it. -/
  | step (after : State)
  /-- `getCpuStatus()`, and the record it answers. -/
  | getCpuStatus (record : CpuStatus)
  /-- `getCurrentInstruction()`, and its answer. No command of R341 asks it. -/
  | getCurrentInstruction (text : Option String)
deriving DecidableEq, Repr

/-- The state after an operation that changes the core. -/
def HostOperation.after? : HostOperation → Option State
  | .reset t | .step t => some t
  | .getCpuStatus _ | .getCurrentInstruction _ => none

/-- The status record an operation answers. -/
def HostOperation.record? : HostOperation → Option CpuStatus
  | .getCpuStatus r => some r
  | .reset _ | .step _ | .getCurrentInstruction _ => none

/-- A `step()` for each state, and nothing else. -/
def stepsAlone (ts : List State) : List HostOperation := ts.map .step

/-- A `step()` for each state, and `getCpuStatus()` after each. -/
def stepsWithStatus (ts : List State) : List HostOperation := ts.flatMap fun t => [.step t, .getCpuStatus (cpuStatus t)]

/-- A command as its sequence of host operations, at most `n` steps of a loop before it is cancelled (R341 to R343). -/
def commandOperations (cmd : Command) (n : Nat) (s : State) : List HostOperation :=
  match cmd with
  | .reset => [.reset (s.hostReset Config.reference)]
  | .ni => stepsWithStatus (stepLoop (fun _ => true) 1 s)
  | .nj => stepsAlone (stepLoop Mnemonic.isJump n s)
  | .nr => stepsAlone (stepLoop (fun m => m == .ret) n s)
  | .run => stepsWithStatus (stepLoop (fun _ => false) n s)
  | .other => []

/-- The states a command takes the machine through. -/
def command (cmd : Command) (n : Nat) (s : State) : List State := (commandOperations cmd n s).filterMap HostOperation.after?

/-- The status records a command asks for: one after each step of `ni` and `run`, none in the other commands (R341). -/
def commandStatuses (cmd : Command) (n : Nat) (s : State) : List CpuStatus :=
  (commandOperations cmd n s).filterMap HostOperation.record?

/-- The record of Output 2 on every step (R346), whatever command the step belongs to: the terminal layer, outside the core,
may take it after each state, and taking it is no operation of the command. -/
def stepRecords (ts : List State) : List CpuStatus := ts.map cpuStatus

/-- The framebuffer as a whole, cell 0 first: a snapshot taken between steps (R345). -/
def framebufferSnapshot (c : Config) (s : State) : List Byte := (List.range (frameCells c)).map s.video.fb.read

/-- What one refresh sample may be (R73, D24): each cell holds a value that cell had at one of the moments of the sampling,
not the same moment for every cell. The states are those between the steps the sampling spans; a cell written inside a
step has its old value before it and its new value after it. -/
def RefreshSample (c : Config) (moments : List State) (sample : List Byte) : Prop :=
  sample.length = frameCells c ∧
  ∀ k, k < frameCells c → ∃ s ∈ moments, sample[k]? = some (s.video.fb.read k)

end Sys2Proof.Machine
end

