-- ==== Sys2Proof/Machine/Param.lean ====
section
/-! DEFINITION. The machine with its parameters left open (00_scope.md R5): any configuration and any Instruction Table that
meets R94, the pairs outside the reference table included (40_step_and_addressing.md R125). The operations are the shared
ones the meanings of `exec` are built from. -/

namespace Sys2Proof.Machine

/-- The 16-bit operand source of a mode (R123). -/
def src16Of (mode : AddrMode) (w : Word) : Option Src16 :=
  match mode with
  | .imm2 => some (.imm w)
  | .abs => some (.mem .abs w)
  | .absi => some (.mem .absi w)
  | .absj => some (.mem .absj w)
  | .ind => some (.mem .ind w)
  | .imp | .imm1 => none

/-- The 8-bit operand source of a mode (R123). -/
def src8Of (mode : AddrMode) (w : Word) : Option Src8 :=
  match mode with
  | .imm1 => some (.imm (loByte w))
  | .abs => some (.mem .abs w)
  | .absi => some (.mem .absi w)
  | .absj => some (.mem .absj w)
  | .ind => some (.mem .ind w)
  | .imp | .imm2 => none

/-- The memory mode of an addressing mode. -/
def memModeOf : AddrMode → Option MemMode
  | .abs => some .abs
  | .absi => some .absi
  | .absj => some .absj
  | .ind => some .ind
  | .imp | .imm1 | .imm2 => none

/-- Runs an operation on the form its mode gives it; a pair with no defined operation is refused (R125). -/
def onForm {α : Type} (m : Mnemonic) (mode : AddrMode) (form : Option α) (run : α → Outcome) : Outcome :=
  match form with
  | some x => run x
  | none => .refused (.undefinedPair m mode)

/-- A load or arithmetic mnemonic with a 16-bit target (R125). -/
def wide (m : Mnemonic) (mode : AddrMode) (w : Word) (run : Src16 → Outcome) : Outcome :=
  onForm m mode (src16Of mode w) run

/-- A load or arithmetic mnemonic with an 8-bit target (R125). -/
def narrow (m : Mnemonic) (mode : AddrMode) (w : Word) (run : Src8 → Outcome) : Outcome :=
  onForm m mode (src8Of mode w) run

/-- A store, a jump or a call (R125). -/
def memory (m : Mnemonic) (mode : AddrMode) (run : MemMode → Outcome) : Outcome :=
  onForm m mode (memModeOf mode) run

/-- A mnemonic that takes only `IMP` (R125). -/
def implied (m : Mnemonic) (mode : AddrMode) (run : Unit → Outcome) : Outcome :=
  onForm m mode (if mode = .imp then some () else none) run

/-- The Operation of a (mnemonic, mode) pair on its operand (R125). Whether it is privileged is the table's to say, and
`cycle` checks that (R115). -/
def operate (c : Config) (d : Descriptor) (w : Word) (s : State) : Outcome :=
  match d.mnemonic with
  | .nop => implied .nop d.mode fun _ => noOperation .nop s
  | .halt => implied .halt d.mode fun _ => haltCore .halt s
  | .clc => implied .clc d.mode fun _ => writeFlag .clc .c false s
  | .sec => implied .sec d.mode fun _ => writeFlag .sec .c true s
  | .clo => implied .clo d.mode fun _ => writeFlag .clo .o false s
  | .cld => implied .cld d.mode fun _ => writeFlag .cld .d false s
  | .sed => implied .sed d.mode fun _ => writeFlag .sed .d true s
  | .cli => implied .cli d.mode fun _ => writeFlag .cli .i false s
  | .sei => implied .sei d.mode fun _ => writeFlag .sei .i true s
  | .cls => implied .cls d.mode fun _ => writeFlag .cls .s false s
  | .lda => wide .lda d.mode w fun src => load16 c .lda .a src s
  | .ldah => narrow .ldah d.mode w fun src => load8 c .ldah .ah src s
  | .ldal => narrow .ldal d.mode w fun src => load8 c .ldal .al src s
  | .ldb => wide .ldb d.mode w fun src => load16 c .ldb .b src s
  | .ldbh => narrow .ldbh d.mode w fun src => load8 c .ldbh .bh src s
  | .ldbl => narrow .ldbl d.mode w fun src => load8 c .ldbl .bl src s
  | .ldi => wide .ldi d.mode w fun src => load16 c .ldi .i src s
  | .ldj => wide .ldj d.mode w fun src => load16 c .ldj .j src s
  | .ldsp => wide .ldsp d.mode w fun src => load16 c .ldsp .sp src s
  | .sta => memory .sta d.mode fun mode => store16 c .sta .a mode w s
  | .stah => memory .stah d.mode fun mode => store8 c .stah .ah mode w s
  | .stal => memory .stal d.mode fun mode => store8 c .stal .al mode w s
  | .stb => memory .stb d.mode fun mode => store16 c .stb .b mode w s
  | .stbh => memory .stbh d.mode fun mode => store8 c .stbh .bh mode w s
  | .stbl => memory .stbl d.mode fun mode => store8 c .stbl .bl mode w s
  | .sti => memory .sti d.mode fun mode => store16 c .sti .i mode w s
  | .stj => memory .stj d.mode fun mode => store16 c .stj .j mode w s
  | .tab => implied .tab d.mode fun _ => transfer .tab .a .b s
  | .tba => implied .tba d.mode fun _ => transfer .tba .b .a s
  | .tai => implied .tai d.mode fun _ => transfer .tai .a .i s
  | .tia => implied .tia d.mode fun _ => transfer .tia .i .a s
  | .taj => implied .taj d.mode fun _ => transfer .taj .a .j s
  | .tja => implied .tja d.mode fun _ => transfer .tja .j .a s
  | .tad => implied .tad d.mode fun _ => transfer .tad .a .dr s
  | .tda => implied .tda d.mode fun _ => transfer .tda .dr .a s
  | .tasp => implied .tasp d.mode fun _ => transfer .tasp .a .sp s
  | .tspa => implied .tspa d.mode fun _ => transfer .tspa .sp .a s
  | .tasr => implied .tasr d.mode fun _ => transferToSr .tasr s
  | .tsra => implied .tsra d.mode fun _ => transferFromSr .tsra s
  | .add => wide .add d.mode w fun src => alu16 c .add .add .a src s
  | .sub => wide .sub d.mode w fun src => alu16 c .sub .sub .a src s
  | .and => wide .and d.mode w fun src => alu16 c .and .and .a src s
  | .or => wide .or d.mode w fun src => alu16 c .or .or .a src s
  | .addh => narrow .addh d.mode w fun src => alu8 c .addh .add .ah src s
  | .addl => narrow .addl d.mode w fun src => alu8 c .addl .add .al src s
  | .subh => narrow .subh d.mode w fun src => alu8 c .subh .sub .ah src s
  | .subl => narrow .subl d.mode w fun src => alu8 c .subl .sub .al src s
  | .andl => narrow .andl d.mode w fun src => alu8 c .andl .and .al src s
  | .orl => narrow .orl d.mode w fun src => alu8 c .orl .or .al src s
  | .addb => wide .addb d.mode w fun src => alu16 c .addb .add .b src s
  | .subb => wide .subb d.mode w fun src => alu16 c .subb .sub .b src s
  | .andb => wide .andb d.mode w fun src => alu16 c .andb .and .b src s
  | .orb => wide .orb d.mode w fun src => alu16 c .orb .or .b src s
  | .addbh => narrow .addbh d.mode w fun src => alu8 c .addbh .add .bh src s
  | .addbl => narrow .addbl d.mode w fun src => alu8 c .addbl .add .bl src s
  | .subbh => narrow .subbh d.mode w fun src => alu8 c .subbh .sub .bh src s
  | .subbl => narrow .subbl d.mode w fun src => alu8 c .subbl .sub .bl src s
  | .andbl => narrow .andbl d.mode w fun src => alu8 c .andbl .and .bl src s
  | .orbl => narrow .orbl d.mode w fun src => alu8 c .orbl .or .bl src s
  | .ini => implied .ini d.mode fun _ => indexStep .ini .add .i s
  | .dei => implied .dei d.mode fun _ => indexStep .dei .sub .i s
  | .inj => implied .inj d.mode fun _ => indexStep .inj .add .j s
  | .dej => implied .dej d.mode fun _ => indexStep .dej .sub .j s
  | .psha => implied .psha d.mode fun _ => push c .psha .a s
  | .popa => implied .popa d.mode fun _ => pop c .popa .a s
  | .pshb => implied .pshb d.mode fun _ => push c .pshb .b s
  | .popb => implied .popb d.mode fun _ => pop c .popb .b s
  | .pshsr => implied .pshsr d.mode fun _ => pushStatus c .pshsr s
  | .popsr => implied .popsr d.mode fun _ => popStatus c .popsr s
  | .jmp => memory .jmp d.mode fun mode => jump c .jmp .always mode w s
  | .jeq => memory .jeq d.mode fun mode => jump c .jeq .zero mode w s
  | .jne => memory .jne d.mode fun mode => jump c .jne .notZero mode w s
  | .jcs => memory .jcs d.mode fun mode => jump c .jcs .carry mode w s
  | .jcc => memory .jcc d.mode fun mode => jump c .jcc .notCarry mode w s
  | .jns => memory .jns d.mode fun mode => jump c .jns .negative mode w s
  | .jnc => memory .jnc d.mode fun mode => jump c .jnc .notNegative mode w s
  | .jos => memory .jos d.mode fun mode => jump c .jos .overflow mode w s
  | .joc => memory .joc d.mode fun mode => jump c .joc .notOverflow mode w s
  | .jlt => memory .jlt d.mode fun mode => jump c .jlt .less mode w s
  | .jge => memory .jge d.mode fun mode => jump c .jge .greaterEqual mode w s
  | .call => memory .call d.mode fun mode => callTo c .call mode w s
  | .ret => implied .ret d.mode fun _ => returnFrom c .ret s

/-- One step of the machine with configuration `c` and Instruction Table `t` (R110, R112). -/
def stepWith (c : Config) (t : Itab) (s : State) : Outcome :=
  cycle c (fun op => (t.lookup op).map fun d => (d, operate c d)) s

/-- The machine with these parameters, or the refusal the spec asks for "before the first step" (R125, U23, U24). -/
def machineFor (c : Config) (t : Itab) : Except Refusal Host.Core :=
  if !c.wellFormed then .error .badConfig
  else if !t.wellFormed then .error .badTable
  else .ok { State := State, Fault := Fault, Refusal := Refusal, step := stepWith c t, reset := State.reset.hostReset c }

end Sys2Proof.Machine
end

