-- ==== Sys2Proof/Safety.lean ====
section
/-! DEFINITION. What claims about this machine are stated in: the invariant between steps (10_state.md R35), how a step ends,
the address ranges of the reference machine, what an operand leaves in the latches, what a store leaves in memory, and the
flag rules in closed form (43_alu.md R194, R195). -/

namespace Sys2Proof.Machine

/-- The reserved bit of SR is 1 (R19). -/
def StatusValid (sr : Byte) : Prop := reservedBit sr = true

/-- MEM is canonical, within 16 bits, and has no byte behind a port address (R31). -/
def MemoryValid (c : Config) (m : Memory) : Prop :=
  m.wf = true ∧ m.below 65536 = true ∧ ∀ a b, (a, b) ∈ m → portMode c a = none

/-- The framebuffer is canonical and has no cell outside the raster (R32). -/
def FramebufferValid (c : Config) (m : Memory) : Prop := m.wf = true ∧ m.below (frameCells c) = true

/-- What holds between any two steps (R35): widths hold by the types, the rest is here. -/
def State.Valid (c : Config) (s : State) : Prop :=
  StatusValid s.sr ∧ MemoryValid c s.mem ∧ FramebufferValid c s.video.fb

/-- The step has a next state: the machine never ends in a fault of the model or a refusal. -/
def Completes (o : Outcome) : Prop := ∃ t, o = .next t

/-- Supervisor mode (R330). -/
def State.supervisor (s : State) : Bool := getFlag .s s.sr

/-! How an instruction or a step ends. -/

/-- `Ok(m)` in state `s` (R111). -/
def endsOk (m : Mnemonic) (s : State) : Outcome := .next { s with result := some (.ok m) }

/-- `Error(m, k)` in state `s`, RUN as it was (R111, R311). -/
def endsError (m : Mnemonic) (k : ErrorKind) (s : State) : Outcome := .next { s with result := some (.error m k) }

/-- `Fault(k)` in state `s`, RUN Faulted (R111, R310). -/
def endsFault (k : ErrorKind) (s : State) : Outcome :=
  .next { s with run := .faulted, result := some (.fault k) }

/-! Address ranges of the reference machine (R51). -/

/-- RAM and the cartridge range, which behaves as RAM (R54, R55). -/
def InRam (a : Word) : Prop := a.toNat < 0xE000 ∨ (0xE009 ≤ a.toNat ∧ a.toNat < 0xE800)

/-- Character map and boot ROM (R52, R53). -/
def InReadOnly (a : Word) : Prop := 0xE800 ≤ a.toNat

/-- The video command port (R57). -/
def InPort (a : Word) : Prop := 0xE000 ≤ a.toNat ∧ a.toNat ≤ 0xE008

/-! What is read. -/

/-- `BusRead(a)` gives `b`. -/
def ReadsByte (s : State) (a : Word) (b : Byte) : Prop := busRead Config.reference s a = .ok b

/-- `BusRead(a)` fails. -/
def ByteReadFails (s : State) (a : Word) (k : ErrorKind) : Prop := busRead Config.reference s a = .error k

/-- `MemRead(a, 2)` gives `v` (R64). -/
def ReadsWord (s : State) (a v : Word) : Prop := ReadsByte s a (hiByte v) ∧ ReadsByte s (a + 1#16) (loByte v)

/-- `MemRead(a, 2)` fails with `k`: the first read does, or the first succeeds and the second does (R64). -/
def WordReadFails (s : State) (a : Word) (k : ErrorKind) : Prop :=
  ByteReadFails s a k ∨ ∃ h, ReadsByte s a h ∧ ByteReadFails s (a + 1#16) k

/-- The bytes `bs` stand from `a` on, as the bus reads them, across the wrap at 0xFFFF (R128). -/
def FetchesBytes (s : State) : Word → List Byte → Prop
  | _, [] => True
  | a, b :: bs => ReadsByte s a b ∧ FetchesBytes s (a + 1#16) bs

/-! What an operand leaves in the latches. -/

/-- The one immediate byte is latched (R116). -/
def State.withImm1 (b : Byte) (s : State) : State := { s with iml := b }

/-- The two immediate bytes are latched (R117). -/
def State.withImm2 (w : Word) (s : State) : State := { s with imh := hiByte w, iml := loByte w }

/-- The two address bytes are latched, AR is as it was (a failing pointer read, R121). -/
def State.withPointer (w : Word) (s : State) : State := { s with emh := hiByte w, eml := loByte w }

/-- The two address bytes are latched and AR holds the effective address `ea` (R118 to R121). -/
def State.atAddress (w ea : Word) (s : State) : State := { s with emh := hiByte w, eml := loByte w, ar := ea }

/-- The state in which an instruction runs once its bytes are fetched (R112): PC past it, the opcode in IR, the mnemonic in
CUR, the operand bytes in the latches of its mode. -/
def State.fetched (i : Instr) (s : State) : State :=
  let bytes := encode i
  let t := { s with pc := s.pc + BitVec.ofNat 16 bytes.length, ir := bytes.getD 0 0#8, cur := some i.mnemonic }
  match i.mode with
  | .imp => t
  | .imm1 => { t with iml := bytes.getD 1 0#8 }
  | .imm2 => { t with imh := bytes.getD 1 0#8, iml := bytes.getD 2 0#8 }
  | .abs | .absi | .absj | .ind => { t with emh := bytes.getD 1 0#8, eml := bytes.getD 2 0#8 }

/-- The opcodes without an entry in the reference table (30_encoding.md R98). -/
def Unassigned (op : Byte) : Prop :=
  op.toNat = 0x00 ∨ (0x03 ≤ op.toNat ∧ op.toNat ≤ 0x07) ∨ (0x28 ≤ op.toNat ∧ op.toNat ≤ 0x2F) ∨
  (0x3E ≤ op.toNat ∧ op.toNat ≤ 0x3F) ∨ (0x4C ≤ op.toNat ∧ op.toNat ≤ 0x4F) ∨
  (0x64 ≤ op.toNat ∧ op.toNat ≤ 0x6F) ∨ (0x84 ≤ op.toNat ∧ op.toNat ≤ 0x8F) ∨
  (0x94 ≤ op.toNat ∧ op.toNat ≤ 0x9F) ∨ (0xA6 ≤ op.toNat ∧ op.toNat ≤ 0xAF) ∨ 0xBE ≤ op.toNat

/-! What a store leaves. -/

/-- `m'` is `m` with byte `b` at `a` and every other byte as it was. -/
def ByteStored (m m' : Memory) (a : Word) (b : Byte) : Prop :=
  m'.wf = true ∧ m'.read a.toNat = b ∧ ∀ x, x ≠ a.toNat → m'.read x = m.read x

/-- `m'` is `m` with `v` at `a` and `a + 1` modulo 65536, the high byte first (R63), and every other byte as it was. -/
def WordStored (m m' : Memory) (a v : Word) : Prop :=
  m'.wf = true ∧ m'.read a.toNat = hiByte v ∧ m'.read (a + 1#16).toNat = loByte v ∧
  ∀ x, x ≠ a.toNat → x ≠ (a + 1#16).toNat → m'.read x = m.read x

/-! The flag rules in closed form, over unbounded integers. -/

/-- A value that does not fit `w` bits in two's complement. -/
def signedOutOfRange (w : Nat) (v : Int) : Bool := decide (v < -2 ^ (w - 1)) || decide (2 ^ (w - 1) ≤ v)

/-- The bits that arithmetic leaves: I, D, S and the reserved bit (R197). -/
def KeepsSystemBits (sr sr' : Byte) : Prop :=
  getFlag .i sr' = getFlag .i sr ∧ getFlag .d sr' = getFlag .d sr ∧ getFlag .s sr' = getFlag .s sr ∧
  reservedBit sr' = reservedBit sr

/-- Z and N of a result of width `w` (R190). -/
def ZeroNegativeOf {w : Nat} (r : BitVec w) (sr' : Byte) : Prop :=
  getFlag .z sr' = decide (r.toNat = 0) ∧ getFlag .n sr' = r.msb

/-- SR after `x + y`: carry out of the top, the usual signed overflow (R190, R194, R195). -/
def AddFlags {w : Nat} (x y : BitVec w) (sr sr' : Byte) : Prop :=
  getFlag .c sr' = decide (2 ^ w ≤ x.toNat + y.toNat) ∧
  getFlag .o sr' = signedOutOfRange w (x.toInt + y.toInt) ∧
  ZeroNegativeOf (x + y) sr' ∧ KeepsSystemBits sr sr'

/-- SR after `x - y`: C is 1 exactly when `y ≠ 0` and `x ≥ y` unsigned; O is the usual signed overflow, but for the most
negative `y`, where it is "x negative and the result not" (R191, R194, R195). -/
def SubFlags {w : Nat} (x y : BitVec w) (sr sr' : Byte) : Prop :=
  getFlag .c sr' = decide (y.toNat ≠ 0 ∧ y.toNat ≤ x.toNat) ∧
  getFlag .o sr' = (if y.toNat = 2 ^ (w - 1) then x.msb && !(x - y).msb else signedOutOfRange w (x.toInt - y.toInt)) ∧
  ZeroNegativeOf (x - y) sr' ∧ KeepsSystemBits sr sr'

/-- SR after a bitwise operation with result `r`: C and O are as they were (R192, R193, R197). -/
def LogicFlags {w : Nat} (r : BitVec w) (sr sr' : Byte) : Prop :=
  ZeroNegativeOf r sr' ∧ getFlag .c sr' = getFlag .c sr ∧ getFlag .o sr' = getFlag .o sr ∧ KeepsSystemBits sr sr'

end Sys2Proof.Machine
end

