-- ==== Sys2Proof/Certificates/Slice0/Obligations.lean ====
section
/-! DEFINITION. What the provers are asked to prove of the model, one definition per statement, in the order of
OBLIGATIONS.json. `exec i s` is the instruction in the state after its fetch (`State.fetched`), so PC in `s` is already past
it. A next state is given whole: what is not named in it is as in `s`. What a step returns is in the field `result`, the
model's own (log 5). -/

open Sys2Proof Sys2Proof.Machine

/-- O1. Decoding the encoding of any instruction gives it back (R90, R91, R97). -/
def Obligations.DecodeOfEncode : Prop :=
  ∀ (i : Instr) (rest : List Byte), decode (encode i ++ rest) = .ok (i, rest)

/-- O2. Bytes that decode are the encoding of what they decode to (R90, R94, R97). -/
def Obligations.EncodeOfDecode : Prop :=
  ∀ (bs rest : List Byte) (i : Instr), decode bs = .ok (i, rest) → bs = encode i ++ rest

/-- O3. Words written out from the encoding tables decode to their instructions (R91, R97). -/
def Obligations.SpecWordsDecode : Prop :=
  decode [0x02#8] = .ok (.halt, []) ∧
  decode [0x10#8, 0x12#8, 0x34#8] = .ok (.ldaImm2 0x1234#16, []) ∧
  decode [0x19#8, 0x03#8, 0x00#8] = .ok (.ldalAbsi 0x0300#16, []) ∧
  decode [0x15#8, 0x7F#8, 0x01#8] = .ok (.ldahImm1 0x7F#8, [0x01#8]) ∧
  decode [0x33#8, 0x00#8, 0x10#8] = .ok (.staInd 0x0010#16, []) ∧
  decode [0x4A#8] = .ok (.tasr, []) ∧
  decode [0x52#8, 0x00#8, 0x05#8] = .ok (.subImm2 0x0005#16, []) ∧
  decode [0x83#8, 0xFF#8, 0xFE#8] = .ok (.orblAbs 0xFFFE#16, []) ∧
  decode [0x93#8] = .ok (.dej, []) ∧
  decode [0xA5#8] = .ok (.popsr, []) ∧
  decode [0xB1#8, 0x00#8, 0x10#8] = .ok (.jmpInd 0x0010#16, []) ∧
  decode [0xBC#8, 0x03#8, 0x00#8] = .ok (.callAbs 0x0300#16, [])

/-- O4. Exactly the listed opcodes have no entry, and the decoder refuses exactly those (R97, R98, 30_encoding.md). -/
def Obligations.UnassignedOpcodesRefused : Prop :=
  (∀ op : Byte, refItab.lookup op = none ↔ Unassigned op) ∧
  (∀ (op : Byte) (rest : List Byte), Unassigned op → decode (op :: rest) = .error (.unrecognizedOpcode op)) ∧
  (∀ (op x y : Byte) (rest : List Byte), ¬ Unassigned op → ∃ i r, decode (op :: x :: y :: rest) = .ok (i, r))

/-- O5. The reference table has 124 entries and meets every constraint on a table (R90, R93, R94, R97). -/
def Obligations.ReferenceTableMeetsTheConstraints : Prop :=
  refItab.wellFormed = true ∧ refItab.length = 124 ∧
  (∀ i : Instr, (encode i).length = 1 + i.mode.operandByteCount ∧
    refItab.lookup ((encode i).getD 0 0#8) = some i.descriptor) ∧
  refItabUntagged.wellFormed = true ∧ (∀ op : Byte, refItabUntagged.lookup op = refItab.lookup op) ∧
  (∀ (t : Itab) (op : Byte) (m : Mnemonic) (p : Bool),
    Itab.lookup ((op, ⟨m, .immediate, 1, p⟩) :: t) op = some ⟨m, .imm1, 1, p⟩ ∧
    Itab.lookup ((op, ⟨m, .immediate, 2, p⟩) :: t) op = some ⟨m, .imm2, 2, p⟩)

/-- O6. A step runs the instruction whose bytes stand at PC (R112, R116, R117, R118, 40_step_and_addressing.md). -/
def Obligations.StepRunsDecodedInstruction : Prop :=
  ∀ (s : State) (bs : List Byte) (i : Instr), s.run = .running → FetchesBytes s s.pc bs → decode bs = .ok (i, []) →
    step s = exec i (s.fetched i)

/-- O7. A bus error on the opcode fetch or on an operand byte faults the core (R113, R310). -/
def Obligations.FetchErrorsFault : Prop :=
  (∀ (s : State) (k : ErrorKind), s.run = .running → ByteReadFails s s.pc k → step s = endsFault k s) ∧
  (∀ (s : State) (op : Byte) (d : Descriptor) (k : ErrorKind), s.run = .running → ReadsByte s s.pc op →
    refItab.lookup op = some d → d.mode ≠ .imp → ByteReadFails s (s.pc + 1#16) k →
    step s = endsFault k { s with ir := op, cur := some d.mnemonic, pc := s.pc + 1#16 }) ∧
  (∀ (s : State) (op h : Byte) (d : Descriptor) (k : ErrorKind), s.run = .running → ReadsByte s s.pc op →
    refItab.lookup op = some d → d.mode ≠ .imp → d.mode ≠ .imm1 → ReadsByte s (s.pc + 1#16) h →
    ByteReadFails s (s.pc + 2#16) k →
    step s = endsFault k
      (if d.mode = .imm2 then { s with ir := op, cur := some d.mnemonic, pc := s.pc + 2#16, imh := h }
       else { s with ir := op, cur := some d.mnemonic, pc := s.pc + 2#16, emh := h }))

/-- O8. An opcode without an entry faults with PC one past it (R114). -/
def Obligations.UnassignedOpcodeFaults : Prop :=
  ∀ (s : State) (op : Byte), s.run = .running → ReadsByte s s.pc op → refItab.lookup op = none →
    step s = endsFault .unrecognizedOpcode { s with ir := op, pc := s.pc + 1#16 }

/-- O9. A privileged opcode in User mode faults before any operand fetch (R115, R290, R97). That `exec` of each checks
privilege by itself is the model's second check: log 6 (DEDUCED). -/
def Obligations.PrivilegedInUserModeFaults : Prop :=
  (∀ (s : State) (op : Byte) (d : Descriptor), s.run = .running → ReadsByte s s.pc op →
    refItab.lookup op = some d → d.needsPrivilege = true → s.supervisor = false →
    step s = endsFault .privilegeFault { s with ir := op, pc := s.pc + 1#16, cur := some d.mnemonic }) ∧
  (∀ i : Instr, i.descriptor.needsPrivilege = true ↔ i ∈ [Instr.halt, .cli, .sei, .cls, .tasr, .popsr]) ∧
  (∀ i ∈ [Instr.halt, .cli, .sei, .cls, .tasr, .popsr], ∀ s : State, s.supervisor = false →
    exec i s = endsFault .privilegeFault s)

/-- O10. A step of a Halted or Faulted core changes nothing; only reset makes it Running (R127). -/
def Obligations.StoppedCoreStays : Prop :=
  (∀ s : State, s.run ≠ .running → step s = .next { s with result := some (.stopped s.run) }) ∧
  (∀ s : State, (s.hostReset Config.reference).run = .running)

/-- O11. Every step has a next state and one of the four results, with RUN as the result says (R111, R112, R310,
R311). -/
def Obligations.EveryStepReturnsAResult : Prop :=
  ∀ s : State, ∃ t r, step s = .next t ∧ t.result = some r ∧
    match r with
    | .ok m => s.run = .running ∧ t.cur = some m ∧
        (t.run = .running ∨ (t.run = .halted ∧ m = .halt ∧ s.supervisor = true))
    | .error m _ => s.run = .running ∧ t.cur = some m ∧ t.run = .running
    | .fault _ => s.run = .running ∧ t.run = .faulted
    | .stopped q => s.run = q ∧ q ≠ .running ∧ t = { s with result := some (.stopped q) }

/-- O12. Every step keeps the invariant of the machine (R35, R19, R31, R32). -/
def Obligations.EveryStepKeepsValid : Prop :=
  ∀ s t : State, s.Valid Config.reference → step s = .next t → t.Valid Config.reference

/-- O13. The state after reset has the invariant, the values the spec gives, and zeros where the model chose (R40,
R41). The memory (log 2), the latches and the framebuffer (log 3), I and D (log 4) and the empty `result` (log 5) of
`State.reset` are the model's choice: R41 leaves them open. -/
def Obligations.ResetStateIsValid : Prop :=
  State.reset.Valid Config.reference ∧
  State.reset.pc = 0xF000#16 ∧ State.reset.sp = 0#16 ∧ State.reset.a = 0#16 ∧ State.reset.b = 0#16 ∧
  State.reset.i = 0#16 ∧ State.reset.j = 0#16 ∧ State.reset.dr = 0#16 ∧ State.reset.sr = 0x0C#8 ∧
  State.reset.ir = 0#8 ∧ State.reset.emh = 0#8 ∧ State.reset.eml = 0#8 ∧ State.reset.imh = 0#8 ∧
  State.reset.iml = 0#8 ∧ State.reset.ar = 0#16 ∧ State.reset.run = .running ∧ State.reset.cur = none ∧
  State.reset.mem = [] ∧ (∀ a, State.reset.mem.read a = 0#8) ∧
  State.reset.video = { d1 := 0#8, d2 := 0#8, d3 := 0#8, d4 := 0#8, x := 0#8, y := 0#8, fb := [] } ∧
  (∀ k, State.reset.video.fb.read k = 0#8) ∧
  getFlag .i State.reset.sr = false ∧ getFlag .d State.reset.sr = false ∧ State.reset.result = none ∧
  State.reset.hostReset Config.reference = State.reset

/-- O14. No step leaves User mode (R332, R330, R115). -/
def Obligations.UserModeIsNeverLeft : Prop :=
  (∀ s t : State, s.supervisor = false → step s = .next t → t.supervisor = false) ∧
  (∀ s : State, (s.hostReset Config.reference).supervisor = true)

/-- O15. No step changes a byte of the boot ROM or of the character map (R52, R53, R61). -/
def Obligations.ReadOnlyBytesNeverChange : Prop :=
  ∀ (s t : State) (a : Word), s.mem.wf = true → InReadOnly a → step s = .next t →
    t.mem.read a.toNat = s.mem.read a.toNat

/-- O16. Each instruction writes only the bits of SR that its family names (R20, R197, R19). -/
def Obligations.StatusRegisterWriters : Prop :=
  ∀ (i : Instr) (s t : State), exec i s = .next t →
    (i.mnemonic ∉ [Mnemonic.clc, .sec, .clo, .cld, .sed, .cli, .sei, .cls, .tasr, .popsr,
      .add, .sub, .and, .or, .addh, .addl, .subh, .subl, .andl, .orl,
      .addb, .subb, .andb, .orb, .addbh, .addbl, .subbh, .subbl, .andbl, .orbl, .ini, .dei, .inj, .dej] →
      t.sr = s.sr) ∧
    (i.mnemonic ∈ [Mnemonic.and, .or, .andl, .orl, .andb, .orb, .andbl, .orbl] →
      ∀ f, f ≠ .z → f ≠ .n → getFlag f t.sr = getFlag f s.sr) ∧
    (i.mnemonic ∈ [Mnemonic.add, .sub, .addh, .addl, .subh, .subl, .addb, .subb, .addbh, .addbl, .subbh, .subbl,
      .ini, .dei, .inj, .dej] → ∀ f ∈ [Flag.i, .d, .s], getFlag f t.sr = getFlag f s.sr) ∧
    (i.mnemonic ∈ [Mnemonic.clc, .sec] → ∀ f, f ≠ .c → getFlag f t.sr = getFlag f s.sr) ∧
    (i.mnemonic = .clo → ∀ f, f ≠ .o → getFlag f t.sr = getFlag f s.sr) ∧
    (i.mnemonic ∈ [Mnemonic.cld, .sed] → ∀ f, f ≠ .d → getFlag f t.sr = getFlag f s.sr) ∧
    (i.mnemonic ∈ [Mnemonic.cli, .sei] → ∀ f, f ≠ .i → getFlag f t.sr = getFlag f s.sr) ∧
    (i.mnemonic = .cls → ∀ f, f ≠ .s → getFlag f t.sr = getFlag f s.sr) ∧
    (StatusValid s.sr → StatusValid t.sr)

/-- O17. Only stores, pushes and call write memory or the video peripheral (R69, R140, R141, 41_load_store.md). -/
def Obligations.MemoryAndDeviceWriters : Prop :=
  ∀ (i : Instr) (s t : State), exec i s = .next t →
    i.mnemonic ∉ [Mnemonic.sta, .stah, .stal, .stb, .stbh, .stbl, .sti, .stj, .psha, .pshb, .pshsr, .call] →
    t.mem = s.mem ∧ t.video = s.video

/-- O18. Only tad writes the data register (R17, R177, 42_transfer.md). -/
def Obligations.DataRegisterWriter : Prop :=
  ∀ s t : State, step s = .next t → t.dr ≠ s.dr → t.result = some (.ok .tad) ∧ t.dr = s.a

/-- O19. The video latches D2, D3, D4 and the recorded result of the last step influence nothing (R355). The field
`result` is the model's own: log 5. -/
def Obligations.UnreadLatchesAreInvisible : Prop :=
  ∀ (s t : State) (x y z : Byte) (r : Option StepResult), step s = .next t →
    ∃ x' y' z', step { s with video := { s.video with d2 := x, d3 := y, d4 := z }, result := r } =
      .next { t with video := { t.video with d2 := x', d3 := y', d4 := z' } }

/-- O20. The machine with open parameters, given the defaults, is the reference machine (R5, R125, R97). -/
def Obligations.ReferenceStepIsTheGeneralStep : Prop :=
  ∀ s : State, stepWith Config.reference refItab s = step s

/-- O21. With a table that meets the constraints no step is refused (R93, R94, R125, 93_implementation_defined.md). -/
def Obligations.TableConstraintsPreventRefusal : Prop :=
  ∀ (c : Config) (t : Itab) (s : State), t.wellFormed = true → Completes (stepWith c t s) ∧
    ∀ (op : Byte) (d : Descriptor), t.lookup op = some d → d.operandByteCount = d.mode.operandByteCount

/-- O22. reset() gives every register the value the spec gives it and leaves the rest (R360). -/
def Obligations.HostResetValues : Prop :=
  ∀ (c : Config) (s : State),
    s.hostReset c =
      { s with
        a := 0#16, b := 0#16, i := 0#16, j := 0#16, dr := 0#16, sp := 0#16
        ir := 0#8, emh := 0#8, eml := 0#8, imh := 0#8, iml := 0#8, ar := 0#16
        pc := c.resetVector, sr := (s.sr &&& 0x30#8) ||| 0x0C#8, run := .running } ∧
    (StatusValid s.sr → (s.hostReset c).sr =
      setFlag .s true (setFlag .z false (setFlag .c false (setFlag .n false (setFlag .o false s.sr)))))

/-- O23. Two resets in a row leave the same state as one, in any RUN state (R362, R363). -/
def Obligations.HostResetIsIdempotent : Prop :=
  ∀ s : State,
    (s.hostReset Config.reference).hostReset Config.reference = s.hostReset Config.reference ∧
    (s.hostReset Config.reference).pc = 0xF000#16 ∧ (s.hostReset Config.reference).run = .running ∧
    (∀ f : Flag, getFlag f (s.hostReset Config.reference).sr =
      match f with
      | .s => true
      | .z | .c | .n | .o => false
      | .i => getFlag .i s.sr
      | .d => getFlag .d s.sr) ∧
    (s.Valid Config.reference → (s.hostReset Config.reference).Valid Config.reference)

/-- O24. Power-on, setup and the first reset give the state the spec describes (R40, R41, R55, R56, R365). -/
def Obligations.BootGivesResetState : Prop :=
  ∀ (c : Config) (p : PowerOn) (s : State), boot c p = .ok s →
    s.pc = c.resetVector ∧ s.sp = 0#16 ∧ s.a = 0#16 ∧ s.b = 0#16 ∧ s.i = 0#16 ∧ s.j = 0#16 ∧ s.dr = 0#16 ∧
    s.ir = 0#8 ∧ s.emh = 0#8 ∧ s.eml = 0#8 ∧ s.imh = 0#8 ∧ s.iml = 0#8 ∧ s.ar = 0#16 ∧
    s.run = .running ∧ s.cur = none ∧ s.video = p.video ∧
    (∀ f : Flag, getFlag f s.sr =
      match f with
      | .s => true
      | .z | .c | .n | .o => false
      | .i => p.flagI
      | .d => p.flagD) ∧
    (∀ (k : Nat) (b : Byte), p.romImage[k]? = some b → s.mem.read (c.romLo + k) = b) ∧
    (∀ (k : Nat) (b : Byte), p.charImage[k]? = some b → s.mem.read (c.charLo + k) = b) ∧
    (c.cartPresent = true → ∀ (k : Nat) (b : Byte), p.cartImage[k]? = some b → s.mem.read (c.cartLo + k) = b) ∧
    (∀ a, regionOf c a = .ram → s.mem.read a = p.ramInit.read a) ∧
    (c.cartPresent = false → ∀ a, regionOf c a = .cartridge → s.mem.read a = p.ramInit.read a) ∧
    s.Valid c

/-- O25. Each address of the reference machine lies in exactly one region of the map (R51, R57, R350, 20_memory.md).
-/
def Obligations.RegionMap : Prop :=
  (∀ a : Nat, (a < 0x8000 ∨ (0xC000 ≤ a ∧ a < 0xE000) ∨ (0xE009 ≤ a ∧ a < 0xE800)) →
    regionOf Config.reference a = .ram) ∧
  (∀ a : Nat, 0x8000 ≤ a → a < 0xC000 → regionOf Config.reference a = .cartridge) ∧
  (∀ a : Nat, 0xE800 ≤ a → a < 0xF000 → regionOf Config.reference a = .charMap) ∧
  (∀ a : Nat, 0xF000 ≤ a → a < 0x10000 → regionOf Config.reference a = .rom) ∧
  (∀ p ∈ [(0xE000, VideoMode.plot), (0xE001, .clear), (0xE002, .setX), (0xE003, .setY), (0xE004, .setD1),
    (0xE005, .setD2), (0xE006, .setD3), (0xE007, .setD4), (0xE008, .text)],
    regionOf Config.reference p.1 = .video p.2)

/-- O26. A bus read gives the peripheral's answer in the port and the memory byte everywhere else (R60). -/
def Obligations.BusReadRule : Prop :=
  (∀ (s : State) (a : Word), ¬ InPort a → busRead Config.reference s a = .ok (s.mem.read a.toNat)) ∧
  (∀ (s : State) (a : Word) (mode : VideoMode), InPort a → videoModeAt (a.toNat - 0xE000) = some mode →
    busRead Config.reference s a = videoRead Config.reference mode s.video) ∧
  (∀ a : Word, InPort a → ∃ mode, videoModeAt (a.toNat - 0xE000) = some mode) ∧
  (∀ (mode : VideoMode) (v : Video), (∃ b, videoRead Config.reference mode v = .ok b) ∨
    videoRead Config.reference mode v = .error .unreadableMode ∨
    videoRead Config.reference mode v = .error .outOfBoundsCoordinate) ∧
  (∀ (s : State) (a : Word), (∃ b, readByte Config.reference a s = .ok b s) ∨
    ∃ k, readByte Config.reference a s = .err k s)

/-- O27. A bus write is rejected in ROM and character map, a command in the port, stored elsewhere (R61). -/
def Obligations.BusWriteRule : Prop :=
  (∀ (s : State) (a : Word) (b : Byte), InReadOnly a →
    busWrite Config.reference s a b = .error .readOnlyRegionWrite) ∧
  (∀ (s : State) (a : Word) (b : Byte) (mode : VideoMode), InPort a → videoModeAt (a.toNat - 0xE000) = some mode →
    busWrite Config.reference s a b =
      match videoWrite Config.reference mode b s.video with
      | .ok v => .ok { s with video := v }
      | .error k => .error k) ∧
  (∀ a : Word, InPort a → ∃ mode, videoModeAt (a.toNat - 0xE000) = some mode) ∧
  (∀ (mode : VideoMode) (b : Byte) (v : Video), (∃ v', videoWrite Config.reference mode b v = .ok v') ∨
    videoWrite Config.reference mode b v = .error .unimplementedMode ∨
    videoWrite Config.reference mode b v = .error .outOfBoundsCoordinate) ∧
  (∀ (s : State) (a : Word) (b : Byte), s.mem.wf = true → InRam a →
    ∃ m, busWrite Config.reference s a b = .ok { s with mem := m } ∧ ByteStored s.mem m a b)

/-- O28. A word access is two byte accesses, high byte at the lower address first (R64, R65). -/
def Obligations.WordAccessOrder : Prop :=
  (∀ (s : State) (a : Word) (h l : Byte), ReadsByte s a h → ReadsByte s (a + 1#16) l →
    readWord Config.reference a s = .ok (wordOf h l) s) ∧
  (∀ (s : State) (a : Word) (k : ErrorKind), WordReadFails s a k → readWord Config.reference a s = .err k s) ∧
  (∀ (s t u : State) (a v : Word), busWrite Config.reference s a (hiByte v) = .ok t →
    busWrite Config.reference t (a + 1#16) (loByte v) = .ok u → writeWord Config.reference a v s = .ok () u) ∧
  (∀ (s : State) (a v : Word) (k : ErrorKind), busWrite Config.reference s a (hiByte v) = .error k →
    writeWord Config.reference a v s = .err k s) ∧
  (∀ (s t : State) (a v : Word) (k : ErrorKind), busWrite Config.reference s a (hiByte v) = .ok t →
    busWrite Config.reference t (a + 1#16) (loByte v) = .error k → writeWord Config.reference a v s = .err k t) ∧
  (∀ h l : Byte, (wordOf h l).toNat = 256 * h.toNat + l.toNat ∧ hiByte (wordOf h l) = h ∧ loByte (wordOf h l) = l) ∧
  (∀ a : Word, (a + 1#16).toNat = (a.toNat + 1) % 65536)

/-- O29. The six latch commands store the data byte in one latch each; text and unreadable modes fail (R353, R354,
R355, R356, R357). -/
def Obligations.VideoLatchCommands : Prop :=
  ∀ (c : Config) (v : Video) (b : Byte),
    videoWrite c .setX b v = .ok { v with x := b } ∧ videoWrite c .setY b v = .ok { v with y := b } ∧
    videoWrite c .setD1 b v = .ok { v with d1 := b } ∧ videoWrite c .setD2 b v = .ok { v with d2 := b } ∧
    videoWrite c .setD3 b v = .ok { v with d3 := b } ∧ videoWrite c .setD4 b v = .ok { v with d4 := b } ∧
    videoWrite c .text b v = .error .unimplementedMode ∧
    ∀ mode : VideoMode, mode ≠ .plot → videoRead c mode v = .error .unreadableMode

/-- O30. Plot writes D1 into the cell at (X, Y) and nothing else; the bound is on the index (R351). -/
def Obligations.VideoPlotRule : Prop :=
  ∀ (c : Config) (v : Video) (b : Byte),
    (v.x.toNat + v.y.toNat * c.rasterW < c.rasterW * c.rasterH →
      (v.fb.wf = true → ∃ fb, videoWrite c .plot b v = .ok { v with fb := fb } ∧
        fb.read (v.x.toNat + v.y.toNat * c.rasterW) = v.d1 ∧
        ∀ k, k ≠ v.x.toNat + v.y.toNat * c.rasterW → fb.read k = v.fb.read k) ∧
      videoRead c .plot v = .ok (v.fb.read (v.x.toNat + v.y.toNat * c.rasterW))) ∧
    (c.rasterW * c.rasterH ≤ v.x.toNat + v.y.toNat * c.rasterW →
      videoWrite c .plot b v = .error .outOfBoundsCoordinate ∧
      videoRead c .plot v = .error .outOfBoundsCoordinate)

/-- O31. Clear fills the whole framebuffer with D1, never fails, and the result is canonical (R352). -/
def Obligations.VideoClearRule : Prop :=
  ∀ (c : Config) (v : Video) (b : Byte), ∃ fb, videoWrite c .clear b v = .ok { v with fb := fb } ∧
    FramebufferValid c fb ∧ ∀ k, k < c.rasterW * c.rasterH → fb.read k = v.d1

/-- O32. The seven flags stand in their bits; one is written without disturbing the others (R18, R19, R20). -/
def Obligations.StatusRegisterLayout : Prop :=
  (∀ sr : Byte, getFlag .n sr = sr.getLsbD 7 ∧ getFlag .o sr = sr.getLsbD 6 ∧ getFlag .i sr = sr.getLsbD 5 ∧
    getFlag .d sr = sr.getLsbD 4 ∧ getFlag .s sr = sr.getLsbD 3 ∧ reservedBit sr = sr.getLsbD 2 ∧
    getFlag .z sr = sr.getLsbD 1 ∧ getFlag .c sr = sr.getLsbD 0) ∧
  (∀ (f g : Flag) (v : Bool) (sr : Byte), getFlag g (setFlag f v sr) = if g = f then v else getFlag g sr) ∧
  (∀ (f : Flag) (v : Bool) (sr : Byte), reservedBit (setFlag f v sr) = reservedBit sr) ∧
  (∀ v : Byte, reservedBit (statusOf v) = true ∧ ∀ f : Flag, getFlag f (statusOf v) = getFlag f v)

/-- O33. A half register is one byte of its accumulator; writing it leaves the other half (R15). -/
def Obligations.HalfRegisterRule : Prop :=
  ∀ (s : State) (v : Byte),
    s.readReg8 .ah = s.a.extractLsb' 8 8 ∧ s.readReg8 .al = s.a.extractLsb' 0 8 ∧
    s.readReg8 .bh = s.b.extractLsb' 8 8 ∧ s.readReg8 .bl = s.b.extractLsb' 0 8 ∧
    s.writeReg8 .ah v = { s with a := v ++ s.a.extractLsb' 0 8 } ∧
    s.writeReg8 .al v = { s with a := s.a.extractLsb' 8 8 ++ v } ∧
    s.writeReg8 .bh v = { s with b := v ++ s.b.extractLsb' 0 8 } ∧
    s.writeReg8 .bl v = { s with b := s.b.extractLsb' 8 8 ++ v } ∧
    s.readReg16 .a = s.a ∧ s.readReg16 .b = s.b ∧
    (∀ w : Word, s.writeReg16 .a w = { s with a := w } ∧ s.writeReg16 .b w = { s with b := w })

/-- O34. The four flagged operations have the closed forms of carry and overflow at both widths (R190, R191, R192,
R193, R194, R195). -/
def Obligations.FlaggedOperationsClosedForms : Prop :=
  ∀ w ∈ [8, 16], ∀ x y : BitVec w,
    (addFlagged x y).result = x + y ∧
    (addFlagged x y).carry = decide (2 ^ w ≤ x.toNat + y.toNat) ∧
    (addFlagged x y).overflow = signedOutOfRange w (x.toInt + y.toInt) ∧
    (addFlagged x y).zero = decide ((x + y).toNat = 0) ∧ (addFlagged x y).negative = (x + y).getLsbD (w - 1) ∧
    (subFlagged x y).result = x - y ∧
    (subFlagged x y).carry = decide (y.toNat ≠ 0 ∧ y.toNat ≤ x.toNat) ∧
    (subFlagged x y).overflow = signedOutOfRange w (x.toInt + (BitVec.ofNat w (2 ^ w - y.toNat)).toInt) ∧
    (subFlagged x y).zero = decide (x.toNat = y.toNat) ∧ (subFlagged x y).negative = (x - y).getLsbD (w - 1) ∧
    (andFlagged x y).result = x &&& y ∧ (andFlagged x y).zero = decide ((x &&& y).toNat = 0) ∧
    (andFlagged x y).negative = (x.getLsbD (w - 1) && y.getLsbD (w - 1)) ∧
    (orFlagged x y).result = x ||| y ∧ (orFlagged x y).zero = decide (x.toNat = 0 ∧ y.toNat = 0) ∧
    (orFlagged x y).negative = (x.getLsbD (w - 1) || y.getLsbD (w - 1))

/-- O35. The nine immediate loads set their target, the immediate latches and nothing else (R140, R116, R117, R142,
R143, R144, R145, R146, R147, R148, R150). -/
def Obligations.LoadImmediates : Prop :=
  ∀ (s : State) (w : Word) (v : Byte),
    exec (.ldaImm2 w) s = endsOk .lda { s.withImm2 w with a := w } ∧
    exec (.ldbImm2 w) s = endsOk .ldb { s.withImm2 w with b := w } ∧
    exec (.ldiImm2 w) s = endsOk .ldi { s.withImm2 w with i := w } ∧
    exec (.ldjImm2 w) s = endsOk .ldj { s.withImm2 w with j := w } ∧
    exec (.ldspImm2 w) s = endsOk .ldsp { s.withImm2 w with sp := w } ∧
    exec (.ldahImm1 v) s = endsOk .ldah { s.withImm1 v with a := wordOf v (loByte s.a) } ∧
    exec (.ldalImm1 v) s = endsOk .ldal { s.withImm1 v with a := wordOf (hiByte s.a) v } ∧
    exec (.ldbhImm1 v) s = endsOk .ldbh { s.withImm1 v with b := wordOf v (loByte s.b) } ∧
    exec (.ldblImm1 v) s = endsOk .ldbl { s.withImm1 v with b := wordOf (hiByte s.b) v }

/-- O36. The eight word loads from memory set their target and the address latches alone (R140, R118, R119, R120,
R121, R142, R145, R148, R149, R150). -/
def Obligations.WordLoadsFromMemory : Prop :=
  ∀ (s : State) (w v p : Word),
    (ReadsWord s w v → exec (.ldaAbs w) s = endsOk .lda { s.atAddress w w with a := v }) ∧
    (ReadsWord s w v → exec (.ldbAbs w) s = endsOk .ldb { s.atAddress w w with b := v }) ∧
    (ReadsWord s w v → exec (.ldiAbs w) s = endsOk .ldi { s.atAddress w w with i := v }) ∧
    (ReadsWord s w v → exec (.ldjAbs w) s = endsOk .ldj { s.atAddress w w with j := v }) ∧
    (ReadsWord s w v → exec (.ldspAbs w) s = endsOk .ldsp { s.atAddress w w with sp := v }) ∧
    (ReadsWord s (w + s.i) v → exec (.ldaAbsi w) s = endsOk .lda { s.atAddress w (w + s.i) with a := v }) ∧
    (ReadsWord s (w + s.j) v → exec (.ldaAbsj w) s = endsOk .lda { s.atAddress w (w + s.j) with a := v }) ∧
    (ReadsWord s w p → ReadsWord s p v → exec (.ldaInd w) s = endsOk .lda { s.atAddress w p with a := v })

/-- O37. The seven byte loads from memory set one half and the address latches alone (R140, R118, R119, R120, R121,
R143, R144, R146, R147). -/
def Obligations.ByteLoadsFromMemory : Prop :=
  ∀ (s : State) (w p : Word) (v : Byte),
    (ReadsByte s w v → exec (.ldahAbs w) s = endsOk .ldah { s.atAddress w w with a := wordOf v (loByte s.a) }) ∧
    (ReadsByte s w v → exec (.ldalAbs w) s = endsOk .ldal { s.atAddress w w with a := wordOf (hiByte s.a) v }) ∧
    (ReadsByte s w v → exec (.ldbhAbs w) s = endsOk .ldbh { s.atAddress w w with b := wordOf v (loByte s.b) }) ∧
    (ReadsByte s w v → exec (.ldblAbs w) s = endsOk .ldbl { s.atAddress w w with b := wordOf (hiByte s.b) v }) ∧
    (ReadsByte s (w + s.i) v → exec (.ldalAbsi w) s =
      endsOk .ldal { s.atAddress w (w + s.i) with a := wordOf (hiByte s.a) v }) ∧
    (ReadsByte s (w + s.j) v → exec (.ldalAbsj w) s =
      endsOk .ldal { s.atAddress w (w + s.j) with a := wordOf (hiByte s.a) v }) ∧
    (ReadsWord s w p → ReadsByte s p v → exec (.ldalInd w) s =
      endsOk .ldal { s.atAddress w p with a := wordOf (hiByte s.a) v })

/-- O38. An instruction whose operand or pointer read fails ends in Error and changes the latches alone (R124, R121,
R140, R199). -/
def Obligations.OperandReadErrors : Prop :=
  (∀ p ∈ ([
      (.ldaAbs, .lda), (.ldbAbs, .ldb), (.ldiAbs, .ldi), (.ldjAbs, .ldj), (.ldspAbs, .ldsp),
      (.addAbs, .add), (.subAbs, .sub), (.andAbs, .and), (.orAbs, .or), (.addbAbs, .addb), (.subbAbs, .subb),
      (.andbAbs, .andb), (.orbAbs, .orb)] :
      List ((Word → Instr) × Mnemonic)),
    ∀ (s : State) (w : Word) (k : ErrorKind), WordReadFails s w k →
      exec (p.1 w) s = endsError p.2 k (s.atAddress w w)) ∧
  (∀ p ∈ ([
      (.ldahAbs, .ldah), (.ldalAbs, .ldal), (.ldbhAbs, .ldbh), (.ldblAbs, .ldbl),
      (.addhAbs, .addh), (.addlAbs, .addl), (.subhAbs, .subh), (.sublAbs, .subl), (.andlAbs, .andl),
      (.orlAbs, .orl), (.addbhAbs, .addbh), (.addblAbs, .addbl), (.subbhAbs, .subbh), (.subblAbs, .subbl),
      (.andblAbs, .andbl), (.orblAbs, .orbl)] :
      List ((Word → Instr) × Mnemonic)),
    ∀ (s : State) (w : Word) (k : ErrorKind), ByteReadFails s w k →
      exec (p.1 w) s = endsError p.2 k (s.atAddress w w)) ∧
  (∀ (s : State) (w : Word) (k : ErrorKind),
    (WordReadFails s (w + s.i) k → exec (.ldaAbsi w) s = endsError .lda k (s.atAddress w (w + s.i))) ∧
    (WordReadFails s (w + s.j) k → exec (.ldaAbsj w) s = endsError .lda k (s.atAddress w (w + s.j))) ∧
    (ByteReadFails s (w + s.i) k → exec (.ldalAbsi w) s = endsError .ldal k (s.atAddress w (w + s.i))) ∧
    (ByteReadFails s (w + s.j) k → exec (.ldalAbsj w) s = endsError .ldal k (s.atAddress w (w + s.j)))) ∧
  (∀ (s : State) (w : Word) (k : ErrorKind), WordReadFails s w k →
    exec (.ldaInd w) s = endsError .lda k (s.withPointer w) ∧
    exec (.ldalInd w) s = endsError .ldal k (s.withPointer w)) ∧
  (∀ (s : State) (w p : Word) (k : ErrorKind), ReadsWord s w p →
    (WordReadFails s p k → exec (.ldaInd w) s = endsError .lda k (s.atAddress w p)) ∧
    (ByteReadFails s p k → exec (.ldalInd w) s = endsError .ldal k (s.atAddress w p)))

/-- O39. The seven word stores put the register in memory, high byte first, and change nothing else (R141, R65, R151,
R154, R157, R158). -/
def Obligations.WordStoresInRam : Prop :=
  (∀ p ∈ ([(.staAbs, .sta, .a), (.stbAbs, .stb, .b), (.stiAbs, .sti, .i), (.stjAbs, .stj, .j)] :
      List ((Word → Instr) × Mnemonic × Reg16)),
    ∀ (s : State) (w : Word), s.mem.wf = true → InRam w → InRam (w + 1#16) →
      ∃ m, exec (p.1 w) s = endsOk p.2.1 { s.atAddress w w with mem := m } ∧
        WordStored s.mem m w (s.readReg16 p.2.2)) ∧
  (∀ (s : State) (w : Word), s.mem.wf = true → InRam (w + s.i) → InRam (w + s.i + 1#16) →
    ∃ m, exec (.staAbsi w) s = endsOk .sta { s.atAddress w (w + s.i) with mem := m } ∧
      WordStored s.mem m (w + s.i) s.a) ∧
  (∀ (s : State) (w : Word), s.mem.wf = true → InRam (w + s.j) → InRam (w + s.j + 1#16) →
    ∃ m, exec (.staAbsj w) s = endsOk .sta { s.atAddress w (w + s.j) with mem := m } ∧
      WordStored s.mem m (w + s.j) s.a) ∧
  (∀ (s : State) (w p : Word), s.mem.wf = true → ReadsWord s w p → InRam p → InRam (p + 1#16) →
    ∃ m, exec (.staInd w) s = endsOk .sta { s.atAddress w p with mem := m } ∧ WordStored s.mem m p s.a)

/-- O40. The seven byte stores put one half register in memory and change nothing else (R141, R152, R153, R155, R156).
-/
def Obligations.ByteStoresInRam : Prop :=
  (∀ p ∈ ([(.stahAbs, .stah, .ah), (.stalAbs, .stal, .al), (.stbhAbs, .stbh, .bh), (.stblAbs, .stbl, .bl)] :
      List ((Word → Instr) × Mnemonic × Reg8)),
    ∀ (s : State) (w : Word), s.mem.wf = true → InRam w →
      ∃ m, exec (p.1 w) s = endsOk p.2.1 { s.atAddress w w with mem := m } ∧
        ByteStored s.mem m w (s.readReg8 p.2.2)) ∧
  (∀ (s : State) (w : Word), s.mem.wf = true → InRam (w + s.i) →
    ∃ m, exec (.stalAbsi w) s = endsOk .stal { s.atAddress w (w + s.i) with mem := m } ∧
      ByteStored s.mem m (w + s.i) (loByte s.a)) ∧
  (∀ (s : State) (w : Word), s.mem.wf = true → InRam (w + s.j) →
    ∃ m, exec (.stalAbsj w) s = endsOk .stal { s.atAddress w (w + s.j) with mem := m } ∧
      ByteStored s.mem m (w + s.j) (loByte s.a)) ∧
  (∀ (s : State) (w p : Word), s.mem.wf = true → ReadsWord s w p → InRam p →
    ∃ m, exec (.stalInd w) s = endsOk .stal { s.atAddress w p with mem := m } ∧
      ByteStored s.mem m p (loByte s.a))

/-- O41. A store to any region is its bus writes in order; an Error keeps the writes already made (R124, R141, R65).
-/
def Obligations.StoresOutsideRam : Prop :=
  (∀ q ∈ ([(.staAbs, .sta, .a, fun _ w => w), (.stbAbs, .stb, .b, fun _ w => w), (.stiAbs, .sti, .i, fun _ w => w),
      (.stjAbs, .stj, .j, fun _ w => w), (.staAbsi, .sta, .a, fun s w => w + s.i),
      (.staAbsj, .sta, .a, fun s w => w + s.j)] :
      List ((Word → Instr) × Mnemonic × Reg16 × (State → Word → Word))),
    ∀ (s t u : State) (w ea v : Word) (k : ErrorKind), ea = q.2.2.2 s w → v = s.readReg16 q.2.2.1 →
      (busWrite Config.reference (s.atAddress w ea) ea (hiByte v) = .error k →
        exec (q.1 w) s = endsError q.2.1 k (s.atAddress w ea)) ∧
      (busWrite Config.reference (s.atAddress w ea) ea (hiByte v) = .ok t →
        busWrite Config.reference t (ea + 1#16) (loByte v) = .error k → exec (q.1 w) s = endsError q.2.1 k t) ∧
      (busWrite Config.reference (s.atAddress w ea) ea (hiByte v) = .ok t →
        busWrite Config.reference t (ea + 1#16) (loByte v) = .ok u → exec (q.1 w) s = endsOk q.2.1 u)) ∧
  (∀ q ∈ ([(.stahAbs, .stah, .ah, fun _ w => w), (.stalAbs, .stal, .al, fun _ w => w),
      (.stbhAbs, .stbh, .bh, fun _ w => w), (.stblAbs, .stbl, .bl, fun _ w => w),
      (.stalAbsi, .stal, .al, fun s w => w + s.i), (.stalAbsj, .stal, .al, fun s w => w + s.j)] :
      List ((Word → Instr) × Mnemonic × Reg8 × (State → Word → Word))),
    ∀ (s t : State) (w ea : Word) (k : ErrorKind), ea = q.2.2.2 s w →
      (busWrite Config.reference (s.atAddress w ea) ea (s.readReg8 q.2.2.1) = .error k →
        exec (q.1 w) s = endsError q.2.1 k (s.atAddress w ea)) ∧
      (busWrite Config.reference (s.atAddress w ea) ea (s.readReg8 q.2.2.1) = .ok t →
        exec (q.1 w) s = endsOk q.2.1 t)) ∧
  (∀ (s : State) (w : Word) (k : ErrorKind), WordReadFails s w k →
    exec (.staInd w) s = endsError .sta k (s.withPointer w) ∧
    exec (.stalInd w) s = endsError .stal k (s.withPointer w)) ∧
  (∀ (s t u : State) (w p : Word) (k : ErrorKind), ReadsWord s w p →
    (busWrite Config.reference (s.atAddress w p) p (hiByte s.a) = .error k →
      exec (.staInd w) s = endsError .sta k (s.atAddress w p)) ∧
    (busWrite Config.reference (s.atAddress w p) p (hiByte s.a) = .ok t →
      busWrite Config.reference t (p + 1#16) (loByte s.a) = .error k → exec (.staInd w) s = endsError .sta k t) ∧
    (busWrite Config.reference (s.atAddress w p) p (hiByte s.a) = .ok t →
      busWrite Config.reference t (p + 1#16) (loByte s.a) = .ok u → exec (.staInd w) s = endsOk .sta u) ∧
    (busWrite Config.reference (s.atAddress w p) p (loByte s.a) = .error k →
      exec (.stalInd w) s = endsError .stal k (s.atAddress w p)) ∧
    (busWrite Config.reference (s.atAddress w p) p (loByte s.a) = .ok t → exec (.stalInd w) s = endsOk .stal t))

/-- O42. The ten register transfers copy one register to the other and change nothing else (R170, R171, R172, R173,
R174, R175, R176, R177, R178, R179, R180). -/
def Obligations.RegisterTransfers : Prop :=
  ∀ s : State,
    exec .tab s = endsOk .tab { s with b := s.a } ∧
    exec .tba s = endsOk .tba { s with a := s.b } ∧
    exec .tai s = endsOk .tai { s with i := s.a } ∧
    exec .tia s = endsOk .tia { s with a := s.i } ∧
    exec .taj s = endsOk .taj { s with j := s.a } ∧
    exec .tja s = endsOk .tja { s with a := s.j } ∧
    exec .tad s = endsOk .tad { s with dr := s.a } ∧
    exec .tda s = endsOk .tda { s with a := s.dr } ∧
    exec .tasp s = endsOk .tasp { s with sp := s.a } ∧
    exec .tspa s = endsOk .tspa { s with a := s.sp }

/-- O43. tsra copies SR to the low byte of A; tasr in Supervisor mode copies it back with bit 2 forced (R181, R182,
R19). -/
def Obligations.StatusTransfers : Prop :=
  (∀ s : State, exec .tsra s = endsOk .tsra { s with a := wordOf (hiByte s.a) s.sr }) ∧
  (∀ s : State, s.supervisor = true → exec .tasr s = endsOk .tasr { s with sr := loByte s.a ||| 0x04#8 })

/-- O44. add and addb add to their accumulator with C, O, Z, N in closed form (R199, R200, R210, R190, R194). -/
def Obligations.WordAdditions : Prop :=
  ∀ (s : State) (w v : Word),
    (∃ sr, exec (.addImm2 w) s = endsOk .add { s.withImm2 w with a := s.a + w, sr := sr } ∧
      AddFlags s.a w s.sr sr) ∧
    (ReadsWord s w v → ∃ sr, exec (.addAbs w) s = endsOk .add { s.atAddress w w with a := s.a + v, sr := sr } ∧
      AddFlags s.a v s.sr sr) ∧
    (∃ sr, exec (.addbImm2 w) s = endsOk .addb { s.withImm2 w with b := s.b + w, sr := sr } ∧
      AddFlags s.b w s.sr sr) ∧
    (ReadsWord s w v → ∃ sr, exec (.addbAbs w) s = endsOk .addb { s.atAddress w w with b := s.b + v, sr := sr } ∧
      AddFlags s.b v s.sr sr)

/-- O45. sub and subb subtract from their accumulator with the carry and overflow quirks (R199, R201, R211, R191,
R194, R195). -/
def Obligations.WordSubtractions : Prop :=
  ∀ (s : State) (w v : Word),
    (∃ sr, exec (.subImm2 w) s = endsOk .sub { s.withImm2 w with a := s.a - w, sr := sr } ∧
      SubFlags s.a w s.sr sr) ∧
    (ReadsWord s w v → ∃ sr, exec (.subAbs w) s = endsOk .sub { s.atAddress w w with a := s.a - v, sr := sr } ∧
      SubFlags s.a v s.sr sr) ∧
    (∃ sr, exec (.subbImm2 w) s = endsOk .subb { s.withImm2 w with b := s.b - w, sr := sr } ∧
      SubFlags s.b w s.sr sr) ∧
    (ReadsWord s w v → ∃ sr, exec (.subbAbs w) s = endsOk .subb { s.atAddress w w with b := s.b - v, sr := sr } ∧
      SubFlags s.b v s.sr sr)

/-- O46. and, or, andb, orb write the bitwise result and Z and N alone (R192, R193, R197, R202, R203, R212, R213). -/
def Obligations.WordLogic : Prop :=
  ∀ (s : State) (w v : Word),
    (∃ sr, exec (.andImm2 w) s = endsOk .and { s.withImm2 w with a := s.a &&& w, sr := sr } ∧
      LogicFlags (s.a &&& w) s.sr sr) ∧
    (ReadsWord s w v → ∃ sr, exec (.andAbs w) s = endsOk .and { s.atAddress w w with a := s.a &&& v, sr := sr } ∧
      LogicFlags (s.a &&& v) s.sr sr) ∧
    (∃ sr, exec (.orImm2 w) s = endsOk .or { s.withImm2 w with a := s.a ||| w, sr := sr } ∧
      LogicFlags (s.a ||| w) s.sr sr) ∧
    (ReadsWord s w v → ∃ sr, exec (.orAbs w) s = endsOk .or { s.atAddress w w with a := s.a ||| v, sr := sr } ∧
      LogicFlags (s.a ||| v) s.sr sr) ∧
    (∃ sr, exec (.andbImm2 w) s = endsOk .andb { s.withImm2 w with b := s.b &&& w, sr := sr } ∧
      LogicFlags (s.b &&& w) s.sr sr) ∧
    (ReadsWord s w v → ∃ sr, exec (.andbAbs w) s = endsOk .andb { s.atAddress w w with b := s.b &&& v, sr := sr } ∧
      LogicFlags (s.b &&& v) s.sr sr) ∧
    (∃ sr, exec (.orbImm2 w) s = endsOk .orb { s.withImm2 w with b := s.b ||| w, sr := sr } ∧
      LogicFlags (s.b ||| w) s.sr sr) ∧
    (ReadsWord s w v → ∃ sr, exec (.orbAbs w) s = endsOk .orb { s.atAddress w w with b := s.b ||| v, sr := sr } ∧
      LogicFlags (s.b ||| v) s.sr sr)

/-- O47. addh, addl, addbh, addbl add to one half with flags at 8 bits (R198, R199, R204, R205, R214, R215). -/
def Obligations.HalfAdditions : Prop :=
  ∀ (s : State) (w : Word) (v : Byte),
    (∃ sr, exec (.addhImm1 v) s = endsOk .addh
        { s.withImm1 v with a := wordOf (hiByte s.a + v) (loByte s.a), sr := sr } ∧
      AddFlags (hiByte s.a) v s.sr sr) ∧
    (ReadsByte s w v → ∃ sr, exec (.addhAbs w) s = endsOk .addh
        { s.atAddress w w with a := wordOf (hiByte s.a + v) (loByte s.a), sr := sr } ∧
      AddFlags (hiByte s.a) v s.sr sr) ∧
    (∃ sr, exec (.addlImm1 v) s = endsOk .addl
        { s.withImm1 v with a := wordOf (hiByte s.a) (loByte s.a + v), sr := sr } ∧
      AddFlags (loByte s.a) v s.sr sr) ∧
    (ReadsByte s w v → ∃ sr, exec (.addlAbs w) s = endsOk .addl
        { s.atAddress w w with a := wordOf (hiByte s.a) (loByte s.a + v), sr := sr } ∧
      AddFlags (loByte s.a) v s.sr sr) ∧
    (∃ sr, exec (.addbhImm1 v) s = endsOk .addbh
        { s.withImm1 v with b := wordOf (hiByte s.b + v) (loByte s.b), sr := sr } ∧
      AddFlags (hiByte s.b) v s.sr sr) ∧
    (ReadsByte s w v → ∃ sr, exec (.addbhAbs w) s = endsOk .addbh
        { s.atAddress w w with b := wordOf (hiByte s.b + v) (loByte s.b), sr := sr } ∧
      AddFlags (hiByte s.b) v s.sr sr) ∧
    (∃ sr, exec (.addblImm1 v) s = endsOk .addbl
        { s.withImm1 v with b := wordOf (hiByte s.b) (loByte s.b + v), sr := sr } ∧
      AddFlags (loByte s.b) v s.sr sr) ∧
    (ReadsByte s w v → ∃ sr, exec (.addblAbs w) s = endsOk .addbl
        { s.atAddress w w with b := wordOf (hiByte s.b) (loByte s.b + v), sr := sr } ∧
      AddFlags (loByte s.b) v s.sr sr)

/-- O48. subh, subl, subbh, subbl subtract from one half with flags at 8 bits (R198, R199, R206, R207, R216, R217). -/
def Obligations.HalfSubtractions : Prop :=
  ∀ (s : State) (w : Word) (v : Byte),
    (∃ sr, exec (.subhImm1 v) s = endsOk .subh
        { s.withImm1 v with a := wordOf (hiByte s.a - v) (loByte s.a), sr := sr } ∧
      SubFlags (hiByte s.a) v s.sr sr) ∧
    (ReadsByte s w v → ∃ sr, exec (.subhAbs w) s = endsOk .subh
        { s.atAddress w w with a := wordOf (hiByte s.a - v) (loByte s.a), sr := sr } ∧
      SubFlags (hiByte s.a) v s.sr sr) ∧
    (∃ sr, exec (.sublImm1 v) s = endsOk .subl
        { s.withImm1 v with a := wordOf (hiByte s.a) (loByte s.a - v), sr := sr } ∧
      SubFlags (loByte s.a) v s.sr sr) ∧
    (ReadsByte s w v → ∃ sr, exec (.sublAbs w) s = endsOk .subl
        { s.atAddress w w with a := wordOf (hiByte s.a) (loByte s.a - v), sr := sr } ∧
      SubFlags (loByte s.a) v s.sr sr) ∧
    (∃ sr, exec (.subbhImm1 v) s = endsOk .subbh
        { s.withImm1 v with b := wordOf (hiByte s.b - v) (loByte s.b), sr := sr } ∧
      SubFlags (hiByte s.b) v s.sr sr) ∧
    (ReadsByte s w v → ∃ sr, exec (.subbhAbs w) s = endsOk .subbh
        { s.atAddress w w with b := wordOf (hiByte s.b - v) (loByte s.b), sr := sr } ∧
      SubFlags (hiByte s.b) v s.sr sr) ∧
    (∃ sr, exec (.subblImm1 v) s = endsOk .subbl
        { s.withImm1 v with b := wordOf (hiByte s.b) (loByte s.b - v), sr := sr } ∧
      SubFlags (loByte s.b) v s.sr sr) ∧
    (ReadsByte s w v → ∃ sr, exec (.subblAbs w) s = endsOk .subbl
        { s.atAddress w w with b := wordOf (hiByte s.b) (loByte s.b - v), sr := sr } ∧
      SubFlags (loByte s.b) v s.sr sr)

/-- O49. andl, orl, andbl, orbl write one low byte and Z and N alone (R198, R197, R208, R209, R218, R219). -/
def Obligations.HalfLogic : Prop :=
  ∀ (s : State) (w : Word) (v : Byte),
    (∃ sr, exec (.andlImm1 v) s = endsOk .andl
        { s.withImm1 v with a := wordOf (hiByte s.a) (loByte s.a &&& v), sr := sr } ∧
      LogicFlags ((loByte s.a) &&& v) s.sr sr) ∧
    (ReadsByte s w v → ∃ sr, exec (.andlAbs w) s = endsOk .andl
        { s.atAddress w w with a := wordOf (hiByte s.a) (loByte s.a &&& v), sr := sr } ∧
      LogicFlags ((loByte s.a) &&& v) s.sr sr) ∧
    (∃ sr, exec (.orlImm1 v) s = endsOk .orl
        { s.withImm1 v with a := wordOf (hiByte s.a) (loByte s.a ||| v), sr := sr } ∧
      LogicFlags ((loByte s.a) ||| v) s.sr sr) ∧
    (ReadsByte s w v → ∃ sr, exec (.orlAbs w) s = endsOk .orl
        { s.atAddress w w with a := wordOf (hiByte s.a) (loByte s.a ||| v), sr := sr } ∧
      LogicFlags ((loByte s.a) ||| v) s.sr sr) ∧
    (∃ sr, exec (.andblImm1 v) s = endsOk .andbl
        { s.withImm1 v with b := wordOf (hiByte s.b) (loByte s.b &&& v), sr := sr } ∧
      LogicFlags ((loByte s.b) &&& v) s.sr sr) ∧
    (ReadsByte s w v → ∃ sr, exec (.andblAbs w) s = endsOk .andbl
        { s.atAddress w w with b := wordOf (hiByte s.b) (loByte s.b &&& v), sr := sr } ∧
      LogicFlags ((loByte s.b) &&& v) s.sr sr) ∧
    (∃ sr, exec (.orblImm1 v) s = endsOk .orbl
        { s.withImm1 v with b := wordOf (hiByte s.b) (loByte s.b ||| v), sr := sr } ∧
      LogicFlags ((loByte s.b) ||| v) s.sr sr) ∧
    (ReadsByte s w v → ∃ sr, exec (.orblAbs w) s = endsOk .orbl
        { s.atAddress w w with b := wordOf (hiByte s.b) (loByte s.b ||| v), sr := sr } ∧
      LogicFlags ((loByte s.b) ||| v) s.sr sr)

/-- O50. ini, dei, inj, dej step an index register by one with all four flags (R197, R220, R221, R222, R223). -/
def Obligations.IndexSteps : Prop :=
  ∀ s : State,
    (∃ sr, exec .ini s = endsOk .ini { s with i := s.i + 1#16, sr := sr } ∧ AddFlags s.i 1#16 s.sr sr) ∧
    (∃ sr, exec .dei s = endsOk .dei { s with i := s.i - 1#16, sr := sr } ∧ SubFlags s.i 1#16 s.sr sr) ∧
    (∃ sr, exec .inj s = endsOk .inj { s with j := s.j + 1#16, sr := sr } ∧ AddFlags s.j 1#16 s.sr sr) ∧
    (∃ sr, exec .dej s = endsOk .dej { s with j := s.j - 1#16, sr := sr } ∧ SubFlags s.j 1#16 s.sr sr)

/-- O51. psha, pshb, pshsr write at SP and advance it; every other byte stays (R240, R241, R242, R244, R246). -/
def Obligations.PushesInRam : Prop :=
  (∀ s : State, s.mem.wf = true → InRam s.sp → InRam (s.sp + 1#16) →
    (∃ m, exec .psha s = endsOk .psha { s with sp := s.sp + 2#16, mem := m } ∧ WordStored s.mem m s.sp s.a) ∧
    (∃ m, exec .pshb s = endsOk .pshb { s with sp := s.sp + 2#16, mem := m } ∧ WordStored s.mem m s.sp s.b)) ∧
  (∀ s : State, s.mem.wf = true → InRam s.sp →
    ∃ m, exec .pshsr s = endsOk .pshsr { s with sp := s.sp + 1#16, mem := m } ∧ ByteStored s.mem m s.sp s.sr)

/-- O52. popa, popb, popsr take the bytes below SP and step it back (R240, R241, R243, R245, R247). -/
def Obligations.Pops : Prop :=
  (∀ (s : State) (h l : Byte), ReadsByte s (s.sp - 1#16) l → ReadsByte s (s.sp - 2#16) h →
    exec .popa s = endsOk .popa { s with a := wordOf h l, sp := s.sp - 2#16 } ∧
    exec .popb s = endsOk .popb { s with b := wordOf h l, sp := s.sp - 2#16 }) ∧
  (∀ (s : State) (b : Byte), s.supervisor = true → ReadsByte s (s.sp - 1#16) b →
    exec .popsr s = endsOk .popsr { s with sr := b ||| 0x04#8, sp := s.sp - 1#16 })

/-- O53. A push that fails keeps the bytes already pushed; a pop that fails changes nothing (R241, R124, R267, R268).
-/
def Obligations.StackErrors : Prop :=
  (∀ p ∈ [(Instr.psha, Mnemonic.psha, Reg16.a), (.pshb, .pshb, .b)], ∀ (s t : State) (k : ErrorKind),
    (busWrite Config.reference s s.sp (hiByte (s.readReg16 p.2.2)) = .error k → exec p.1 s = endsError p.2.1 k s) ∧
    (busWrite Config.reference s s.sp (hiByte (s.readReg16 p.2.2)) = .ok t →
      busWrite Config.reference { t with sp := s.sp + 1#16 } (s.sp + 1#16) (loByte (s.readReg16 p.2.2)) = .error k →
      exec p.1 s = endsError p.2.1 k { t with sp := s.sp + 1#16 })) ∧
  (∀ (s : State) (k : ErrorKind), busWrite Config.reference s s.sp s.sr = .error k →
    exec .pshsr s = endsError .pshsr k s) ∧
  (∀ (s t : State) (w : Word) (k : ErrorKind),
    (busWrite Config.reference (s.atAddress w w) s.sp (hiByte s.pc) = .error k →
      exec (.callAbs w) s = endsError .call k (s.atAddress w w)) ∧
    (busWrite Config.reference (s.atAddress w w) s.sp (hiByte s.pc) = .ok t →
      busWrite Config.reference { t with sp := s.sp + 1#16 } (s.sp + 1#16) (loByte s.pc) = .error k →
      exec (.callAbs w) s = endsError .call k { t with sp := s.sp + 1#16 })) ∧
  (∀ p ∈ [(Instr.popa, Mnemonic.popa), (.popb, .popb), (.ret, .ret)], ∀ (s : State) (k : ErrorKind),
    (ByteReadFails s (s.sp - 1#16) k ∨
      ∃ l, ReadsByte s (s.sp - 1#16) l ∧ ByteReadFails s (s.sp - 2#16) k) →
    exec p.1 s = endsError p.2 k s) ∧
  (∀ (s : State) (k : ErrorKind), s.supervisor = true → ByteReadFails s (s.sp - 1#16) k →
    exec .popsr s = endsError .popsr k s)

/-- O54. A push or call to any region is its bus writes in order, with SP advanced once per byte (R241, R242, R244,
R246, R267). -/
def Obligations.PushesOutsideRam : Prop :=
  (∀ p ∈ [(Instr.psha, Mnemonic.psha, Reg16.a), (.pshb, .pshb, .b)], ∀ s t u : State,
    busWrite Config.reference s s.sp (hiByte (s.readReg16 p.2.2)) = .ok t →
    busWrite Config.reference { t with sp := s.sp + 1#16 } (s.sp + 1#16) (loByte (s.readReg16 p.2.2)) = .ok u →
    exec p.1 s = endsOk p.2.1 { u with sp := s.sp + 2#16 }) ∧
  (∀ s t : State, busWrite Config.reference s s.sp s.sr = .ok t →
    exec .pshsr s = endsOk .pshsr { t with sp := s.sp + 1#16 }) ∧
  (∀ (s t u : State) (w : Word), busWrite Config.reference (s.atAddress w w) s.sp (hiByte s.pc) = .ok t →
    busWrite Config.reference { t with sp := s.sp + 1#16 } (s.sp + 1#16) (loByte s.pc) = .ok u →
    exec (.callAbs w) s = endsOk .call { u with sp := s.sp + 2#16, pc := w })

/-- O55. The eleven absolute jumps test their flags and set PC to the target or leave it (R255, R256, R257, R258,
R259, R260, R261, R262, R263, R264, R265, R266). -/
def Obligations.Jumps : Prop :=
  ∀ (s : State) (w : Word),
    exec (.jmpAbs w) s = endsOk .jmp { s.atAddress w w with pc := w } ∧
    exec (.jeqAbs w) s = endsOk .jeq { s.atAddress w w with pc := if s.sr.getLsbD 1 = true then w else s.pc } ∧
    exec (.jneAbs w) s = endsOk .jne { s.atAddress w w with pc := if s.sr.getLsbD 1 = false then w else s.pc } ∧
    exec (.jcsAbs w) s = endsOk .jcs { s.atAddress w w with pc := if s.sr.getLsbD 0 = true then w else s.pc } ∧
    exec (.jccAbs w) s = endsOk .jcc { s.atAddress w w with pc := if s.sr.getLsbD 0 = false then w else s.pc } ∧
    exec (.jnsAbs w) s = endsOk .jns { s.atAddress w w with pc := if s.sr.getLsbD 7 = true then w else s.pc } ∧
    exec (.jncAbs w) s = endsOk .jnc { s.atAddress w w with pc := if s.sr.getLsbD 7 = false then w else s.pc } ∧
    exec (.josAbs w) s = endsOk .jos { s.atAddress w w with pc := if s.sr.getLsbD 6 = true then w else s.pc } ∧
    exec (.jocAbs w) s = endsOk .joc { s.atAddress w w with pc := if s.sr.getLsbD 6 = false then w else s.pc } ∧
    exec (.jltAbs w) s = endsOk .jlt { s.atAddress w w with pc := if s.sr.getLsbD 7 ≠ s.sr.getLsbD 6 then w else s.pc } ∧
    exec (.jgeAbs w) s = endsOk .jge { s.atAddress w w with pc := if s.sr.getLsbD 7 = s.sr.getLsbD 6 then w else s.pc }

/-- O56. The indirect jump goes to the word its pointer holds; a failing pointer read leaves PC and AR (R121, R256).
-/
def Obligations.IndirectJump : Prop :=
  (∀ (s : State) (w p : Word), ReadsWord s w p →
    exec (.jmpInd w) s = endsOk .jmp { s.atAddress w p with pc := p }) ∧
  (∀ (s : State) (w : Word) (k : ErrorKind), WordReadFails s w k →
    exec (.jmpInd w) s = endsError .jmp k (s.withPointer w))

/-- O57. call pushes the address after it and jumps; ret goes to the word below SP; a pair returns (R267, R268, R241).
-/
def Obligations.CallAndReturn : Prop :=
  (∀ (s : State) (w : Word), s.mem.wf = true → InRam s.sp → InRam (s.sp + 1#16) →
    ∃ m, exec (.callAbs w) s = endsOk .call { s.atAddress w w with sp := s.sp + 2#16, pc := w, mem := m } ∧
      WordStored s.mem m s.sp s.pc ∧
      ∃ t, exec .ret { s.atAddress w w with sp := s.sp + 2#16, pc := w, mem := m } = endsOk .ret t ∧
        t.pc = s.pc ∧ t.sp = s.sp) ∧
  (∀ (s : State) (h l : Byte), ReadsByte s (s.sp - 1#16) l → ReadsByte s (s.sp - 2#16) h →
    exec .ret s = endsOk .ret { s with pc := wordOf h l, sp := s.sp - 2#16 })

/-- O58. clc, sec, clo, cld, sed write one bit of SR; nop writes nothing (R280, R281, R282, R283, R284, R288). -/
def Obligations.FlagInstructions : Prop :=
  ∀ s : State,
    exec .clc s = endsOk .clc { s with sr := s.sr &&& 0xFE#8 } ∧
    exec .sec s = endsOk .sec { s with sr := s.sr ||| 0x01#8 } ∧
    exec .clo s = endsOk .clo { s with sr := s.sr &&& 0xBF#8 } ∧
    exec .cld s = endsOk .cld { s with sr := s.sr &&& 0xEF#8 } ∧
    exec .sed s = endsOk .sed { s with sr := s.sr ||| 0x10#8 } ∧
    exec .nop s = endsOk .nop s

/-- O59. In Supervisor mode cli, sei, cls write one bit of SR and halt stops the core (R285, R286, R287, R289, R290).
-/
def Obligations.SupervisorInstructions : Prop :=
  ∀ s : State, s.supervisor = true →
    exec .cli s = endsOk .cli { s with sr := s.sr &&& 0xDF#8 } ∧
    exec .sei s = endsOk .sei { s with sr := s.sr ||| 0x20#8 } ∧
    exec .cls s = endsOk .cls { s with sr := s.sr &&& 0xF7#8 } ∧
    exec .halt s = endsOk .halt { s with run := .halted }

/-- O60. A stepping loop stops on the first step that carries no mnemonic or one its predicate accepts (R341, R342,
R343). The bound `n` of a loop stands for the host's cancellation: log 13 (DESIGN CHOICE). -/
def Obligations.SteppingLoopsEnd : Prop :=
  (∀ (stop : Mnemonic → Bool) (n : Nat) (s : State),
    (stepLoop stop n s).length ≤ n ∧ (0 < n → stepLoop stop n s ≠ []) ∧
    (∀ (k : Nat) (t u : State), (stepLoop stop n s)[k]? = some t → (stepLoop stop n s)[k + 1]? = some u →
      step t = .next u ∧ ∃ r m, t.result = some r ∧ r.mnemonic = some m ∧ stop m = false) ∧
    (∀ t : State, (stepLoop stop n s)[0]? = some t → step s = .next t) ∧
    (∀ t : State, (stepLoop stop n s).length < n → (stepLoop stop n s).getLast? = some t →
      ∃ r, t.result = some r ∧ ∀ m, r.mnemonic = some m → stop m = true)) ∧
  ∀ (n : Nat) (s : State),
    commandOperations .reset n s = [.reset (s.hostReset Config.reference)] ∧
    (∀ t : State, step s = .next t → commandOperations .ni n s = [.step t, .getCpuStatus (cpuStatus t)]) ∧
    command .nj n s = stepLoop Mnemonic.isJump n s ∧ commandStatuses .nj n s = [] ∧
    command .nr n s = stepLoop (fun m => m == .ret) n s ∧ commandStatuses .nr n s = [] ∧
    command .run n s = stepLoop (fun _ => false) n s ∧
    commandStatuses .run n s = (stepLoop (fun _ => false) n s).map cpuStatus
end

