-- ==== Sys2Proof/Laws/Bits.lean ====
section
/-! SUPPORT. Laws of the byte order helpers and of the status register's bits. -/

namespace Sys2Proof

@[simp] theorem hiByte_wordOf (h l : Byte) : hiByte (wordOf h l) = h := by
  unfold hiByte wordOf
  ext k hk
  simp only [BitVec.getElem_extractLsb', BitVec.getLsbD_append]
  rw [if_neg (by omega), Nat.add_sub_cancel_left, BitVec.getLsbD_eq_getElem hk]

@[simp] theorem loByte_wordOf (h l : Byte) : loByte (wordOf h l) = l := by
  unfold loByte wordOf
  ext k hk
  simp only [BitVec.getElem_extractLsb', BitVec.getLsbD_append]
  rw [if_pos (by omega), Nat.zero_add, BitVec.getLsbD_eq_getElem hk]

@[simp] theorem wordOf_hiByte_loByte (w : Word) : wordOf (hiByte w) (loByte w) = w := by
  unfold hiByte loByte wordOf
  ext k hk
  simp only [BitVec.getElem_append, BitVec.getElem_extractLsb']
  split
  · rw [Nat.zero_add, BitVec.getLsbD_eq_getElem hk]
  · rw [Nat.add_sub_cancel' (by omega), BitVec.getLsbD_eq_getElem hk]

/-- Big-endian order in numbers (R63): the high byte counts 256. -/
theorem wordOf_toNat (h l : Byte) : (wordOf h l).toNat = 256 * h.toNat + l.toNat := by
  unfold wordOf
  rw [BitVec.toNat_append, Nat.shiftLeft_eq, Nat.mul_comm, ← Nat.two_pow_add_eq_or_of_lt l.isLt]

namespace Machine

theorem Flag.bit_lt (f : Flag) : f.bit < 8 := by cases f <;> decide

theorem Flag.bit_inj {f g : Flag} (h : f.bit = g.bit) : f = g := by
  cases f <;> cases g <;> first | rfl | exact absurd h (by decide)

/-- A flag write puts its value in the flag's bit and leaves every other bit (R20). -/
theorem getLsbD_setFlag (f : Flag) (v : Bool) (sr : Byte) (k : Nat) (hk : k < 8) :
    (setFlag f v sr).getLsbD k = if k = f.bit then v else sr.getLsbD k := by
  have hf := f.bit_lt
  unfold setFlag
  by_cases h : k = f.bit
  · subst h
    cases v <;> simp [hf]
  · have hd : ((1#8 <<< f.bit).getLsbD k) = false := by
      rw [BitVec.getLsbD_shiftLeft]
      by_cases hlt : k < f.bit
      · simp [hlt]
      · have : k - f.bit ≠ 0 := by omega
        simp [this]
    cases v
    · rw [if_neg (by decide), if_neg h, BitVec.getLsbD_and, BitVec.getLsbD_not, hd]; simp [hk]
    · rw [if_pos rfl, if_neg h, BitVec.getLsbD_or, hd, Bool.or_false]

@[simp] theorem getFlag_setFlag_self (f : Flag) (v : Bool) (sr : Byte) : getFlag f (setFlag f v sr) = v := by
  rw [getFlag, getLsbD_setFlag f v sr _ f.bit_lt, if_pos rfl]

theorem getFlag_setFlag_other (f g : Flag) (h : g ≠ f) (v : Bool) (sr : Byte) :
    getFlag g (setFlag f v sr) = getFlag g sr := by
  rw [getFlag, getLsbD_setFlag f v sr _ g.bit_lt, if_neg fun hb => h (Flag.bit_inj hb), getFlag]

/-- No flag write touches the reserved bit (R19). -/
@[simp] theorem reservedBit_setFlag (f : Flag) (v : Bool) (sr : Byte) :
    reservedBit (setFlag f v sr) = reservedBit sr := by
  rw [reservedBit, getLsbD_setFlag f v sr 2 (by decide), if_neg (by cases f <;> decide), reservedBit]

/-- A whole-byte write forces the reserved bit (R19). -/
@[simp] theorem reservedBit_statusOf (v : Byte) : reservedBit (statusOf v) = true := by
  simp [reservedBit, statusOf]

/-- A whole-byte write copies every flag (R19). -/
@[simp] theorem getFlag_statusOf (f : Flag) (v : Byte) : getFlag f (statusOf v) = getFlag f v := by
  cases f <;> simp [getFlag, statusOf, Flag.bit]

@[simp] theorem reservedBit_resetStatus (sr : Byte) : reservedBit (resetStatus sr) = true := by
  simp [reservedBit, resetStatus]

/-- Every flag after `reset()`: S set, N O Z C clear, I and D as they were (R360). -/
theorem getFlag_resetStatus (f : Flag) (sr : Byte) :
    getFlag f (resetStatus sr) =
      match f with
      | .s => true
      | .n | .o | .z | .c => false
      | .i => getFlag .i sr
      | .d => getFlag .d sr := by
  cases f <;> simp [getFlag, resetStatus, Flag.bit]

@[simp] theorem reservedBit_setCONZ {w : Nat} (f : ArithResult w) (sr : Byte) :
    reservedBit (setCONZ f sr) = reservedBit sr := by simp [setCONZ]

@[simp] theorem reservedBit_setZN {w : Nat} (f : LogicResult w) (sr : Byte) :
    reservedBit (setZN f sr) = reservedBit sr := by simp [setZN]

/-- What an operation of the Register Bank leaves in the reserved bit: what was there. -/
@[simp] theorem AluOp.reservedBit_status {w : Nat} (op : AluOp) (a b : BitVec w) (sr : Byte) :
    reservedBit (op.status a b sr) = reservedBit sr := by cases op <;> simp [AluOp.status]

/-- Two status bytes with the same seven flags and the same reserved bit are the same. -/
theorem status_ext {x y : Byte} (h : ∀ f, getFlag f x = getFlag f y) (hr : reservedBit x = reservedBit y) : x = y := by
  apply BitVec.eq_of_getLsbD_eq
  intro k hk
  have := h .n; have := h .o; have := h .i; have := h .d; have := h .s; have := h .z; have := h .c
  simp only [getFlag, Flag.bit, reservedBit] at *
  interval_cases k <;> assumption

/-- Every flag after `setCONZ` (R7, R197). -/
theorem getFlag_setCONZ {w : Nat} (f : ArithResult w) (sr : Byte) (g : Flag) :
    getFlag g (setCONZ f sr) =
      match g with
      | .c => f.carry
      | .o => f.overflow
      | .z => f.zero
      | .n => f.negative
      | .i => getFlag .i sr
      | .d => getFlag .d sr
      | .s => getFlag .s sr := by
  cases g <;> simp [setCONZ, getFlag_setFlag_other]

/-- Every flag after `setZN`: C and O are as they were (R7, R197). -/
theorem getFlag_setZN {w : Nat} (f : LogicResult w) (sr : Byte) (g : Flag) :
    getFlag g (setZN f sr) =
      match g with
      | .z => f.zero
      | .n => f.negative
      | .c => getFlag .c sr
      | .o => getFlag .o sr
      | .i => getFlag .i sr
      | .d => getFlag .d sr
      | .s => getFlag .s sr := by
  cases g <;> simp [setZN, getFlag_setFlag_other]

/-- No operation of the Register Bank writes S, I or D (R197). -/
theorem AluOp.status_getFlag {w : Nat} (op : AluOp) (a b : BitVec w) (sr : Byte) (g : Flag)
    (hg : g = .s ∨ g = .i ∨ g = .d) : getFlag g (op.status a b sr) = getFlag g sr := by
  rcases hg with rfl | rfl | rfl <;> cases op <;> simp [AluOp.status, getFlag_setCONZ, getFlag_setZN]

end Machine
end Sys2Proof
end

