-- ==== Sys2Proof/Laws/Memory.lean ====
section
/-! SUPPORT. Laws of the canonical cell lists: what a read gives after each operation, and that each operation keeps the
canonical form and the bound on indices. -/

namespace Sys2Proof.Machine

/-- Every entry of a canonical list lies above its first one. -/
theorem Memory.wf_cons {k : Nat} {v : Byte} {m : Memory} (h : Memory.wf ((k, v) :: m) = true) :
    (∀ c ∈ m, k < c.1) ∧ v ≠ unlistedByte ∧ Memory.wf m = true := by
  simpa [Memory.wf, and_assoc] using h

theorem Memory.wf_of_cons {k : Nat} {v : Byte} {m : Memory} (hk : ∀ c ∈ m, k < c.1) (hv : v ≠ unlistedByte)
    (hm : Memory.wf m = true) : Memory.wf ((k, v) :: m) = true := by
  simp only [Memory.wf, Bool.and_eq_true, List.all_eq_true, decide_eq_true_eq, bne_iff_ne]
  exact ⟨⟨hk, hv⟩, hm⟩

@[simp] theorem Memory.read_nil (a : Nat) : Memory.read [] a = unlistedByte := rfl

/-- Below every listed index nothing is listed. -/
theorem Memory.read_of_lt {m : Memory} {a : Nat} (h : ∀ c ∈ m, a < c.1) : m.read a = unlistedByte := by
  induction m with
  | nil => rfl
  | cons c m ih =>
    obtain ⟨k, v⟩ := c
    have hk : a < k := h (k, v) (by simp)
    rw [Memory.read, if_neg (by omega)]
    exact ih fun c hc => h c (by simp [hc])

/-- A read in a list with one more entry put before entries that all lie above it. -/
theorem Memory.read_list {m : Memory} {k : Nat} (b : Byte) (h : ∀ c ∈ m, k < c.1) (a : Nat) :
    (Memory.list k b m).read a = if a = k then b else m.read a := by
  unfold Memory.list
  by_cases hb : b = unlistedByte
  · rw [if_pos hb]
    split
    · rename_i hak; rw [hak, Memory.read_of_lt h, hb]
    · rfl
  · rw [if_neg hb, Memory.read]
    by_cases hak : a = k
    · rw [if_pos hak.symm, if_pos hak]
    · rw [if_neg (Ne.symm hak), if_neg hak]

/-- An index listed after a write was listed before, or is the one written. -/
theorem Memory.mem_write {m : Memory} {a : Nat} {b : Byte} {c : Host.Cell} (h : c ∈ m.write a b) :
    c ∈ m ∨ c = (a, b) := by
  induction m with
  | nil =>
    simp only [Memory.write, Memory.list] at h
    split at h <;> simp_all
  | cons d m ih =>
    obtain ⟨k, v⟩ := d
    simp only [Memory.write, Memory.list] at h
    split at h
    · split at h
      · simp_all
      · simp_all; tauto
    · split at h
      · split at h
        · simp_all
        · simp_all; tauto
      · simp only [List.mem_cons] at h ⊢
        rcases h with h | h
        · exact .inl (.inl h)
        · exact (ih h).imp .inr id

theorem Memory.lt_of_mem_write {m : Memory} {a k : Nat} {b : Byte} (hm : ∀ c ∈ m, k < c.1) (ha : k < a) :
    ∀ c ∈ m.write a b, k < c.1 := by
  intro c hc
  rcases Memory.mem_write hc with h | h
  · exact hm c h
  · rw [h]; exact ha

/-- Read after write: the written byte at the written index, every other index as before. -/
theorem Memory.read_write {m : Memory} (hm : m.wf = true) (a : Nat) (b : Byte) (x : Nat) :
    (m.write a b).read x = if x = a then b else m.read x := by
  induction m with
  | nil => exact Memory.read_list b (by simp) x
  | cons d m ih =>
    obtain ⟨k, v⟩ := d
    obtain ⟨hk, -, hw⟩ := Memory.wf_cons hm
    rw [Memory.write]
    split
    · rename_i hak
      refine Memory.read_list b ?_ x
      intro c hc
      rcases List.mem_cons.mp hc with rfl | hc
      · exact hak
      · exact Nat.lt_trans hak (hk c hc)
    · split
      · rename_i hak
        subst hak
        rw [Memory.read_list b hk]
        by_cases hx : x = a
        · rw [if_pos hx, if_pos hx]
        · rw [if_neg hx, if_neg hx, Memory.read, if_neg (Ne.symm hx)]
      · rename_i h1 h2
        rw [Memory.read, Memory.read, ih hw]
        by_cases hx : k = x
        · rw [if_pos hx, if_pos hx, if_neg (by omega)]
        · rw [if_neg hx, if_neg hx]

theorem Memory.wf_list {m : Memory} {k : Nat} {b : Byte} (h : ∀ c ∈ m, k < c.1) (hm : m.wf = true) :
    (Memory.list k b m).wf = true := by
  unfold Memory.list
  split
  · exact hm
  · rename_i hb; exact Memory.wf_of_cons h hb hm

/-- A write keeps the canonical form. -/
theorem Memory.wf_write {m : Memory} (hm : m.wf = true) (a : Nat) (b : Byte) : (m.write a b).wf = true := by
  induction m with
  | nil => exact Memory.wf_list (by simp) rfl
  | cons d m ih =>
    obtain ⟨k, v⟩ := d
    obtain ⟨hk, hv, hw⟩ := Memory.wf_cons hm
    rw [Memory.write]
    split
    · rename_i hak
      refine Memory.wf_list ?_ hm
      intro c hc
      rcases List.mem_cons.mp hc with rfl | hc
      · exact hak
      · exact Nat.lt_trans hak (hk c hc)
    · split
      · rename_i hak; subst hak; exact Memory.wf_list hk hw
      · exact Memory.wf_of_cons (Memory.lt_of_mem_write hk (by omega)) hv (ih hw)

/-- A write keeps the bound on indices. -/
theorem Memory.below_write {m : Memory} {n a : Nat} (hm : m.below n = true) (ha : a < n) (b : Byte) :
    (m.write a b).below n = true := by
  simp only [Memory.below, List.all_eq_true, decide_eq_true_eq] at hm ⊢
  intro c hc
  rcases Memory.mem_write hc with h | h
  · exact hm c h
  · rw [h]; exact ha

/-- Two canonical lists that read alike everywhere are equal: equal contents are equal data. -/
theorem Memory.eq_of_read {m m' : Memory} (hm : m.wf = true) (hm' : m'.wf = true)
    (h : ∀ a, m.read a = m'.read a) : m = m' := by
  induction m generalizing m' with
  | nil =>
    cases m' with
    | nil => rfl
    | cons d m' =>
      obtain ⟨k, v⟩ := d
      obtain ⟨-, hv, -⟩ := Memory.wf_cons hm'
      have := h k
      rw [Memory.read_nil, Memory.read, if_pos rfl] at this
      exact absurd this.symm hv
  | cons d m ih =>
    obtain ⟨k, v⟩ := d
    obtain ⟨hk, hv, hw⟩ := Memory.wf_cons hm
    cases m' with
    | nil =>
      have := h k
      rw [Memory.read_nil, Memory.read, if_pos rfl] at this
      exact absurd this hv
    | cons d' m' =>
      obtain ⟨k', v'⟩ := d'
      obtain ⟨hk', hv', hw'⟩ := Memory.wf_cons hm'
      have hkk : k = k' := by
        rcases Nat.lt_trichotomy k k' with hlt | heq | hgt
        · have := h k
          rw [Memory.read, if_pos rfl, Memory.read, if_neg (by omega),
            Memory.read_of_lt fun c hc => Nat.lt_trans hlt (hk' c hc)] at this
          exact absurd this hv
        · exact heq
        · have := h k'
          rw [Memory.read, if_neg (by omega), Memory.read, if_pos rfl,
            Memory.read_of_lt fun c hc => Nat.lt_trans hgt (hk c hc)] at this
          exact absurd this.symm hv'
      subst hkk
      have hvv : v = v' := by
        have := h k
        rwa [Memory.read, if_pos rfl, Memory.read, if_pos rfl] at this
      subst hvv
      refine congrArg _ (ih hw hw' fun a => ?_)
      by_cases ha : k = a
      · rw [← ha, Memory.read_of_lt hk, Memory.read_of_lt hk']
      · have := h a
        rwa [Memory.read, if_neg ha, Memory.read, if_neg ha] at this

theorem Memory.le_of_mem_uniform {b : Byte} {n a : Nat} {c : Host.Cell} (h : c ∈ Memory.uniform b n a) :
    a ≤ c.1 ∧ c.1 < a + n := by
  induction n generalizing a with
  | zero => simp [Memory.uniform] at h
  | succ n ih =>
    rcases List.mem_cons.mp h with rfl | h
    · exact ⟨Nat.le_refl a, by simp⟩
    · have := ih h; omega

theorem Memory.wf_uniform {b : Byte} (hb : b ≠ unlistedByte) (n a : Nat) : (Memory.uniform b n a).wf = true := by
  induction n generalizing a with
  | zero => rfl
  | succ n ih =>
    refine Memory.wf_of_cons (fun c hc => ?_) hb (ih (a + 1))
    have := Memory.le_of_mem_uniform hc
    omega

theorem Memory.read_uniform (b : Byte) (n a x : Nat) :
    (Memory.uniform b n a).read x = if a ≤ x ∧ x < a + n then b else unlistedByte := by
  induction n generalizing a with
  | zero =>
    rw [if_neg (by omega)]; rfl
  | succ n ih =>
    rw [Memory.uniform, Memory.read, ih]
    by_cases hx : a = x
    · rw [if_pos hx, if_pos (by omega)]
    · rw [if_neg hx]
      by_cases hr : a + 1 ≤ x ∧ x < a + 1 + n
      · rw [if_pos hr, if_pos (by omega)]
      · rw [if_neg hr, if_neg (by omega)]

/-- The filled contents: `b` at the first `n` indices, nothing listed above. -/
theorem Memory.read_filled (n : Nat) (b : Byte) (x : Nat) :
    (Memory.filled n b).read x = if x < n then b else unlistedByte := by
  unfold Memory.filled
  split
  · rename_i hb; rw [hb]; simp
  · rw [Memory.read_uniform]; simp

theorem Memory.wf_filled (n : Nat) (b : Byte) : (Memory.filled n b).wf = true := by
  unfold Memory.filled
  split
  · rfl
  · rename_i hb; exact Memory.wf_uniform hb n 0

theorem Memory.below_filled (n : Nat) (b : Byte) : (Memory.filled n b).below n = true := by
  unfold Memory.filled
  split
  · rfl
  · simp only [Memory.below, List.all_eq_true, decide_eq_true_eq]
    intro c hc
    have := Memory.le_of_mem_uniform hc
    omega

/-- Placing an image keeps the canonical form. -/
theorem Memory.wf_place {m : Memory} (hm : m.wf = true) (a : Nat) (bs : List Byte) : (m.place a bs).wf = true := by
  induction bs generalizing m a with
  | nil => exact hm
  | cons b bs ih => exact ih (Memory.wf_write hm a b) (a + 1)

/-- An image reads back where it was placed; every other index is as before. -/
theorem Memory.read_place {m : Memory} (hm : m.wf = true) (a : Nat) (bs : List Byte) (x : Nat) :
    (m.place a bs).read x = if h : a ≤ x ∧ x < a + bs.length then bs[x - a]'(by omega) else m.read x := by
  induction bs generalizing m a with
  | nil =>
    rw [dif_neg (by simp)]; rfl
  | cons b bs ih =>
    rw [Memory.place, ih (Memory.wf_write hm a b), Memory.read_write hm]
    simp only [List.length_cons]
    by_cases h1 : a + 1 ≤ x ∧ x < a + 1 + bs.length
    · rw [dif_pos h1, dif_pos (by omega)]
      have : x - a = (x - (a + 1)) + 1 := by omega
      simp [this]
    · rw [dif_neg h1]
      by_cases hx : x = a
      · subst hx
        rw [if_pos rfl, dif_pos (by omega)]
        simp
      · rw [if_neg hx, dif_neg (by omega)]

end Sys2Proof.Machine
end

