-- ==== Sys2Proof/Laws/Boot.lean ====
section
/-! SUPPORT. Laws of power-on: what images leave in memory, and that zero inputs give `State.reset`. -/

namespace Sys2Proof.Machine

/-- Every entry after placing an image is an old one or lies where the image does. -/
theorem Memory.mem_place {m : Memory} {a : Nat} {bs : List Byte} {d : Host.Cell} (h : d ∈ m.place a bs) :
    d ∈ m ∨ (a ≤ d.1 ∧ d.1 < a + bs.length) := by
  induction bs generalizing m a with
  | nil => exact .inl h
  | cons b bs ih =>
    rcases ih h with h | h
    · rcases Memory.mem_write h with h | h
      · exact .inl h
      · subst h; exact .inr ⟨by simp, by simp⟩
    · exact .inr ⟨by omega, by simp; omega⟩

/-- Placing bytes that read as an unlisted index does lists nothing in empty contents. -/
theorem Memory.place_unlisted (n a : Nat) : Memory.place [] a (List.replicate n unlistedByte) = [] := by
  induction n generalizing a with
  | zero => rfl
  | succ n ih => exact ih (a + 1)

/-- Placing an instruction's bytes keeps the canonical form. -/
theorem wf_placeBytes {m : Memory} (hm : m.wf = true) (a : Word) (bs : List Byte) : (placeBytes a bs m).wf = true := by
  induction bs generalizing m a with
  | nil => exact hm
  | cons b bs ih => exact ih (Memory.wf_write hm a.toNat b) (a + 1#16)

/-- The memory after reset is canonical. -/
theorem wf_reset : State.reset.mem.wf = true := rfl

/-- An address below or above the port has no video mode. -/
theorem portMode_none {c : Config} {a : Nat} (h : a < c.videoBase ∨ c.videoBase + 8 < a) : portMode c a = none := by
  unfold portMode
  split
  · obtain ⟨k, hk⟩ : ∃ k, a - c.videoBase = k + 9 := ⟨a - c.videoBase - 9, by omega⟩
    rw [hk]; rfl
  · rfl

/-- The power-on inputs that are zero everywhere. -/
def zeroPowerOn : PowerOn where
  ramInit := []
  romImage := List.replicate 4096 unlistedByte
  charImage := List.replicate 2048 unlistedByte
  cartImage := []
  video := Video.initial
  flagI := false
  flagD := false

/-- `State.reset` is what power-on, setup and the first reset give when every open input is zero (logs 2, 3 and 4). -/
theorem boot_zero : boot Config.reference zeroPowerOn = .ok State.reset := by
  have hm : zeroPowerOn.memory Config.reference = [] := by
    simp only [PowerOn.memory, zeroPowerOn, Memory.place_unlisted]
    rfl
  have hi : zeroPowerOn.imagesFit Config.reference = true := by
    have h1 : zeroPowerOn.romImage.length = 4096 := List.length_replicate
    have h2 : zeroPowerOn.charImage.length = 2048 := List.length_replicate
    rw [PowerOn.imagesFit, h1, h2]
    rfl
  have hc : zeroPowerOn.contentsFit Config.reference = true := rfl
  have hw : Config.reference.wellFormed = true := by decide
  simp only [boot, hi, hc, hw, hm]
  rfl

end Sys2Proof.Machine
end

