-- ==== Sys2Proof/Laws/State.lean ====
section
/-! SUPPORT. What each field update leaves in each field: one lemma per field per update, so that no later proof unfolds a
record update. -/

namespace Sys2Proof.Machine

section setPc
variable (v : Word) (s : State)
@[simp] theorem State.setPc_pc : (s.setPc v).pc = v := rfl
@[simp] theorem State.setPc_sp : (s.setPc v).sp = s.sp := rfl
@[simp] theorem State.setPc_a : (s.setPc v).a = s.a := rfl
@[simp] theorem State.setPc_b : (s.setPc v).b = s.b := rfl
@[simp] theorem State.setPc_i : (s.setPc v).i = s.i := rfl
@[simp] theorem State.setPc_j : (s.setPc v).j = s.j := rfl
@[simp] theorem State.setPc_dr : (s.setPc v).dr = s.dr := rfl
@[simp] theorem State.setPc_sr : (s.setPc v).sr = s.sr := rfl
@[simp] theorem State.setPc_ir : (s.setPc v).ir = s.ir := rfl
@[simp] theorem State.setPc_emh : (s.setPc v).emh = s.emh := rfl
@[simp] theorem State.setPc_eml : (s.setPc v).eml = s.eml := rfl
@[simp] theorem State.setPc_imh : (s.setPc v).imh = s.imh := rfl
@[simp] theorem State.setPc_iml : (s.setPc v).iml = s.iml := rfl
@[simp] theorem State.setPc_ar : (s.setPc v).ar = s.ar := rfl
@[simp] theorem State.setPc_run : (s.setPc v).run = s.run := rfl
@[simp] theorem State.setPc_cur : (s.setPc v).cur = s.cur := rfl
@[simp] theorem State.setPc_mem : (s.setPc v).mem = s.mem := rfl
@[simp] theorem State.setPc_video : (s.setPc v).video = s.video := rfl
@[simp] theorem State.setPc_result : (s.setPc v).result = s.result := rfl
end setPc

section setSp
variable (v : Word) (s : State)
@[simp] theorem State.setSp_pc : (s.setSp v).pc = s.pc := rfl
@[simp] theorem State.setSp_sp : (s.setSp v).sp = v := rfl
@[simp] theorem State.setSp_a : (s.setSp v).a = s.a := rfl
@[simp] theorem State.setSp_b : (s.setSp v).b = s.b := rfl
@[simp] theorem State.setSp_i : (s.setSp v).i = s.i := rfl
@[simp] theorem State.setSp_j : (s.setSp v).j = s.j := rfl
@[simp] theorem State.setSp_dr : (s.setSp v).dr = s.dr := rfl
@[simp] theorem State.setSp_sr : (s.setSp v).sr = s.sr := rfl
@[simp] theorem State.setSp_ir : (s.setSp v).ir = s.ir := rfl
@[simp] theorem State.setSp_emh : (s.setSp v).emh = s.emh := rfl
@[simp] theorem State.setSp_eml : (s.setSp v).eml = s.eml := rfl
@[simp] theorem State.setSp_imh : (s.setSp v).imh = s.imh := rfl
@[simp] theorem State.setSp_iml : (s.setSp v).iml = s.iml := rfl
@[simp] theorem State.setSp_ar : (s.setSp v).ar = s.ar := rfl
@[simp] theorem State.setSp_run : (s.setSp v).run = s.run := rfl
@[simp] theorem State.setSp_cur : (s.setSp v).cur = s.cur := rfl
@[simp] theorem State.setSp_mem : (s.setSp v).mem = s.mem := rfl
@[simp] theorem State.setSp_video : (s.setSp v).video = s.video := rfl
@[simp] theorem State.setSp_result : (s.setSp v).result = s.result := rfl
end setSp

section setA
variable (v : Word) (s : State)
@[simp] theorem State.setA_pc : (s.setA v).pc = s.pc := rfl
@[simp] theorem State.setA_sp : (s.setA v).sp = s.sp := rfl
@[simp] theorem State.setA_a : (s.setA v).a = v := rfl
@[simp] theorem State.setA_b : (s.setA v).b = s.b := rfl
@[simp] theorem State.setA_i : (s.setA v).i = s.i := rfl
@[simp] theorem State.setA_j : (s.setA v).j = s.j := rfl
@[simp] theorem State.setA_dr : (s.setA v).dr = s.dr := rfl
@[simp] theorem State.setA_sr : (s.setA v).sr = s.sr := rfl
@[simp] theorem State.setA_ir : (s.setA v).ir = s.ir := rfl
@[simp] theorem State.setA_emh : (s.setA v).emh = s.emh := rfl
@[simp] theorem State.setA_eml : (s.setA v).eml = s.eml := rfl
@[simp] theorem State.setA_imh : (s.setA v).imh = s.imh := rfl
@[simp] theorem State.setA_iml : (s.setA v).iml = s.iml := rfl
@[simp] theorem State.setA_ar : (s.setA v).ar = s.ar := rfl
@[simp] theorem State.setA_run : (s.setA v).run = s.run := rfl
@[simp] theorem State.setA_cur : (s.setA v).cur = s.cur := rfl
@[simp] theorem State.setA_mem : (s.setA v).mem = s.mem := rfl
@[simp] theorem State.setA_video : (s.setA v).video = s.video := rfl
@[simp] theorem State.setA_result : (s.setA v).result = s.result := rfl
end setA

section setB
variable (v : Word) (s : State)
@[simp] theorem State.setB_pc : (s.setB v).pc = s.pc := rfl
@[simp] theorem State.setB_sp : (s.setB v).sp = s.sp := rfl
@[simp] theorem State.setB_a : (s.setB v).a = s.a := rfl
@[simp] theorem State.setB_b : (s.setB v).b = v := rfl
@[simp] theorem State.setB_i : (s.setB v).i = s.i := rfl
@[simp] theorem State.setB_j : (s.setB v).j = s.j := rfl
@[simp] theorem State.setB_dr : (s.setB v).dr = s.dr := rfl
@[simp] theorem State.setB_sr : (s.setB v).sr = s.sr := rfl
@[simp] theorem State.setB_ir : (s.setB v).ir = s.ir := rfl
@[simp] theorem State.setB_emh : (s.setB v).emh = s.emh := rfl
@[simp] theorem State.setB_eml : (s.setB v).eml = s.eml := rfl
@[simp] theorem State.setB_imh : (s.setB v).imh = s.imh := rfl
@[simp] theorem State.setB_iml : (s.setB v).iml = s.iml := rfl
@[simp] theorem State.setB_ar : (s.setB v).ar = s.ar := rfl
@[simp] theorem State.setB_run : (s.setB v).run = s.run := rfl
@[simp] theorem State.setB_cur : (s.setB v).cur = s.cur := rfl
@[simp] theorem State.setB_mem : (s.setB v).mem = s.mem := rfl
@[simp] theorem State.setB_video : (s.setB v).video = s.video := rfl
@[simp] theorem State.setB_result : (s.setB v).result = s.result := rfl
end setB

section setI
variable (v : Word) (s : State)
@[simp] theorem State.setI_pc : (s.setI v).pc = s.pc := rfl
@[simp] theorem State.setI_sp : (s.setI v).sp = s.sp := rfl
@[simp] theorem State.setI_a : (s.setI v).a = s.a := rfl
@[simp] theorem State.setI_b : (s.setI v).b = s.b := rfl
@[simp] theorem State.setI_i : (s.setI v).i = v := rfl
@[simp] theorem State.setI_j : (s.setI v).j = s.j := rfl
@[simp] theorem State.setI_dr : (s.setI v).dr = s.dr := rfl
@[simp] theorem State.setI_sr : (s.setI v).sr = s.sr := rfl
@[simp] theorem State.setI_ir : (s.setI v).ir = s.ir := rfl
@[simp] theorem State.setI_emh : (s.setI v).emh = s.emh := rfl
@[simp] theorem State.setI_eml : (s.setI v).eml = s.eml := rfl
@[simp] theorem State.setI_imh : (s.setI v).imh = s.imh := rfl
@[simp] theorem State.setI_iml : (s.setI v).iml = s.iml := rfl
@[simp] theorem State.setI_ar : (s.setI v).ar = s.ar := rfl
@[simp] theorem State.setI_run : (s.setI v).run = s.run := rfl
@[simp] theorem State.setI_cur : (s.setI v).cur = s.cur := rfl
@[simp] theorem State.setI_mem : (s.setI v).mem = s.mem := rfl
@[simp] theorem State.setI_video : (s.setI v).video = s.video := rfl
@[simp] theorem State.setI_result : (s.setI v).result = s.result := rfl
end setI

section setJ
variable (v : Word) (s : State)
@[simp] theorem State.setJ_pc : (s.setJ v).pc = s.pc := rfl
@[simp] theorem State.setJ_sp : (s.setJ v).sp = s.sp := rfl
@[simp] theorem State.setJ_a : (s.setJ v).a = s.a := rfl
@[simp] theorem State.setJ_b : (s.setJ v).b = s.b := rfl
@[simp] theorem State.setJ_i : (s.setJ v).i = s.i := rfl
@[simp] theorem State.setJ_j : (s.setJ v).j = v := rfl
@[simp] theorem State.setJ_dr : (s.setJ v).dr = s.dr := rfl
@[simp] theorem State.setJ_sr : (s.setJ v).sr = s.sr := rfl
@[simp] theorem State.setJ_ir : (s.setJ v).ir = s.ir := rfl
@[simp] theorem State.setJ_emh : (s.setJ v).emh = s.emh := rfl
@[simp] theorem State.setJ_eml : (s.setJ v).eml = s.eml := rfl
@[simp] theorem State.setJ_imh : (s.setJ v).imh = s.imh := rfl
@[simp] theorem State.setJ_iml : (s.setJ v).iml = s.iml := rfl
@[simp] theorem State.setJ_ar : (s.setJ v).ar = s.ar := rfl
@[simp] theorem State.setJ_run : (s.setJ v).run = s.run := rfl
@[simp] theorem State.setJ_cur : (s.setJ v).cur = s.cur := rfl
@[simp] theorem State.setJ_mem : (s.setJ v).mem = s.mem := rfl
@[simp] theorem State.setJ_video : (s.setJ v).video = s.video := rfl
@[simp] theorem State.setJ_result : (s.setJ v).result = s.result := rfl
end setJ

section setDr
variable (v : Word) (s : State)
@[simp] theorem State.setDr_pc : (s.setDr v).pc = s.pc := rfl
@[simp] theorem State.setDr_sp : (s.setDr v).sp = s.sp := rfl
@[simp] theorem State.setDr_a : (s.setDr v).a = s.a := rfl
@[simp] theorem State.setDr_b : (s.setDr v).b = s.b := rfl
@[simp] theorem State.setDr_i : (s.setDr v).i = s.i := rfl
@[simp] theorem State.setDr_j : (s.setDr v).j = s.j := rfl
@[simp] theorem State.setDr_dr : (s.setDr v).dr = v := rfl
@[simp] theorem State.setDr_sr : (s.setDr v).sr = s.sr := rfl
@[simp] theorem State.setDr_ir : (s.setDr v).ir = s.ir := rfl
@[simp] theorem State.setDr_emh : (s.setDr v).emh = s.emh := rfl
@[simp] theorem State.setDr_eml : (s.setDr v).eml = s.eml := rfl
@[simp] theorem State.setDr_imh : (s.setDr v).imh = s.imh := rfl
@[simp] theorem State.setDr_iml : (s.setDr v).iml = s.iml := rfl
@[simp] theorem State.setDr_ar : (s.setDr v).ar = s.ar := rfl
@[simp] theorem State.setDr_run : (s.setDr v).run = s.run := rfl
@[simp] theorem State.setDr_cur : (s.setDr v).cur = s.cur := rfl
@[simp] theorem State.setDr_mem : (s.setDr v).mem = s.mem := rfl
@[simp] theorem State.setDr_video : (s.setDr v).video = s.video := rfl
@[simp] theorem State.setDr_result : (s.setDr v).result = s.result := rfl
end setDr

section setSr
variable (v : Byte) (s : State)
@[simp] theorem State.setSr_pc : (s.setSr v).pc = s.pc := rfl
@[simp] theorem State.setSr_sp : (s.setSr v).sp = s.sp := rfl
@[simp] theorem State.setSr_a : (s.setSr v).a = s.a := rfl
@[simp] theorem State.setSr_b : (s.setSr v).b = s.b := rfl
@[simp] theorem State.setSr_i : (s.setSr v).i = s.i := rfl
@[simp] theorem State.setSr_j : (s.setSr v).j = s.j := rfl
@[simp] theorem State.setSr_dr : (s.setSr v).dr = s.dr := rfl
@[simp] theorem State.setSr_sr : (s.setSr v).sr = v := rfl
@[simp] theorem State.setSr_ir : (s.setSr v).ir = s.ir := rfl
@[simp] theorem State.setSr_emh : (s.setSr v).emh = s.emh := rfl
@[simp] theorem State.setSr_eml : (s.setSr v).eml = s.eml := rfl
@[simp] theorem State.setSr_imh : (s.setSr v).imh = s.imh := rfl
@[simp] theorem State.setSr_iml : (s.setSr v).iml = s.iml := rfl
@[simp] theorem State.setSr_ar : (s.setSr v).ar = s.ar := rfl
@[simp] theorem State.setSr_run : (s.setSr v).run = s.run := rfl
@[simp] theorem State.setSr_cur : (s.setSr v).cur = s.cur := rfl
@[simp] theorem State.setSr_mem : (s.setSr v).mem = s.mem := rfl
@[simp] theorem State.setSr_video : (s.setSr v).video = s.video := rfl
@[simp] theorem State.setSr_result : (s.setSr v).result = s.result := rfl
end setSr

section setIr
variable (v : Byte) (s : State)
@[simp] theorem State.setIr_pc : (s.setIr v).pc = s.pc := rfl
@[simp] theorem State.setIr_sp : (s.setIr v).sp = s.sp := rfl
@[simp] theorem State.setIr_a : (s.setIr v).a = s.a := rfl
@[simp] theorem State.setIr_b : (s.setIr v).b = s.b := rfl
@[simp] theorem State.setIr_i : (s.setIr v).i = s.i := rfl
@[simp] theorem State.setIr_j : (s.setIr v).j = s.j := rfl
@[simp] theorem State.setIr_dr : (s.setIr v).dr = s.dr := rfl
@[simp] theorem State.setIr_sr : (s.setIr v).sr = s.sr := rfl
@[simp] theorem State.setIr_ir : (s.setIr v).ir = v := rfl
@[simp] theorem State.setIr_emh : (s.setIr v).emh = s.emh := rfl
@[simp] theorem State.setIr_eml : (s.setIr v).eml = s.eml := rfl
@[simp] theorem State.setIr_imh : (s.setIr v).imh = s.imh := rfl
@[simp] theorem State.setIr_iml : (s.setIr v).iml = s.iml := rfl
@[simp] theorem State.setIr_ar : (s.setIr v).ar = s.ar := rfl
@[simp] theorem State.setIr_run : (s.setIr v).run = s.run := rfl
@[simp] theorem State.setIr_cur : (s.setIr v).cur = s.cur := rfl
@[simp] theorem State.setIr_mem : (s.setIr v).mem = s.mem := rfl
@[simp] theorem State.setIr_video : (s.setIr v).video = s.video := rfl
@[simp] theorem State.setIr_result : (s.setIr v).result = s.result := rfl
end setIr

section setEmh
variable (v : Byte) (s : State)
@[simp] theorem State.setEmh_pc : (s.setEmh v).pc = s.pc := rfl
@[simp] theorem State.setEmh_sp : (s.setEmh v).sp = s.sp := rfl
@[simp] theorem State.setEmh_a : (s.setEmh v).a = s.a := rfl
@[simp] theorem State.setEmh_b : (s.setEmh v).b = s.b := rfl
@[simp] theorem State.setEmh_i : (s.setEmh v).i = s.i := rfl
@[simp] theorem State.setEmh_j : (s.setEmh v).j = s.j := rfl
@[simp] theorem State.setEmh_dr : (s.setEmh v).dr = s.dr := rfl
@[simp] theorem State.setEmh_sr : (s.setEmh v).sr = s.sr := rfl
@[simp] theorem State.setEmh_ir : (s.setEmh v).ir = s.ir := rfl
@[simp] theorem State.setEmh_emh : (s.setEmh v).emh = v := rfl
@[simp] theorem State.setEmh_eml : (s.setEmh v).eml = s.eml := rfl
@[simp] theorem State.setEmh_imh : (s.setEmh v).imh = s.imh := rfl
@[simp] theorem State.setEmh_iml : (s.setEmh v).iml = s.iml := rfl
@[simp] theorem State.setEmh_ar : (s.setEmh v).ar = s.ar := rfl
@[simp] theorem State.setEmh_run : (s.setEmh v).run = s.run := rfl
@[simp] theorem State.setEmh_cur : (s.setEmh v).cur = s.cur := rfl
@[simp] theorem State.setEmh_mem : (s.setEmh v).mem = s.mem := rfl
@[simp] theorem State.setEmh_video : (s.setEmh v).video = s.video := rfl
@[simp] theorem State.setEmh_result : (s.setEmh v).result = s.result := rfl
end setEmh

section setEml
variable (v : Byte) (s : State)
@[simp] theorem State.setEml_pc : (s.setEml v).pc = s.pc := rfl
@[simp] theorem State.setEml_sp : (s.setEml v).sp = s.sp := rfl
@[simp] theorem State.setEml_a : (s.setEml v).a = s.a := rfl
@[simp] theorem State.setEml_b : (s.setEml v).b = s.b := rfl
@[simp] theorem State.setEml_i : (s.setEml v).i = s.i := rfl
@[simp] theorem State.setEml_j : (s.setEml v).j = s.j := rfl
@[simp] theorem State.setEml_dr : (s.setEml v).dr = s.dr := rfl
@[simp] theorem State.setEml_sr : (s.setEml v).sr = s.sr := rfl
@[simp] theorem State.setEml_ir : (s.setEml v).ir = s.ir := rfl
@[simp] theorem State.setEml_emh : (s.setEml v).emh = s.emh := rfl
@[simp] theorem State.setEml_eml : (s.setEml v).eml = v := rfl
@[simp] theorem State.setEml_imh : (s.setEml v).imh = s.imh := rfl
@[simp] theorem State.setEml_iml : (s.setEml v).iml = s.iml := rfl
@[simp] theorem State.setEml_ar : (s.setEml v).ar = s.ar := rfl
@[simp] theorem State.setEml_run : (s.setEml v).run = s.run := rfl
@[simp] theorem State.setEml_cur : (s.setEml v).cur = s.cur := rfl
@[simp] theorem State.setEml_mem : (s.setEml v).mem = s.mem := rfl
@[simp] theorem State.setEml_video : (s.setEml v).video = s.video := rfl
@[simp] theorem State.setEml_result : (s.setEml v).result = s.result := rfl
end setEml

section setImh
variable (v : Byte) (s : State)
@[simp] theorem State.setImh_pc : (s.setImh v).pc = s.pc := rfl
@[simp] theorem State.setImh_sp : (s.setImh v).sp = s.sp := rfl
@[simp] theorem State.setImh_a : (s.setImh v).a = s.a := rfl
@[simp] theorem State.setImh_b : (s.setImh v).b = s.b := rfl
@[simp] theorem State.setImh_i : (s.setImh v).i = s.i := rfl
@[simp] theorem State.setImh_j : (s.setImh v).j = s.j := rfl
@[simp] theorem State.setImh_dr : (s.setImh v).dr = s.dr := rfl
@[simp] theorem State.setImh_sr : (s.setImh v).sr = s.sr := rfl
@[simp] theorem State.setImh_ir : (s.setImh v).ir = s.ir := rfl
@[simp] theorem State.setImh_emh : (s.setImh v).emh = s.emh := rfl
@[simp] theorem State.setImh_eml : (s.setImh v).eml = s.eml := rfl
@[simp] theorem State.setImh_imh : (s.setImh v).imh = v := rfl
@[simp] theorem State.setImh_iml : (s.setImh v).iml = s.iml := rfl
@[simp] theorem State.setImh_ar : (s.setImh v).ar = s.ar := rfl
@[simp] theorem State.setImh_run : (s.setImh v).run = s.run := rfl
@[simp] theorem State.setImh_cur : (s.setImh v).cur = s.cur := rfl
@[simp] theorem State.setImh_mem : (s.setImh v).mem = s.mem := rfl
@[simp] theorem State.setImh_video : (s.setImh v).video = s.video := rfl
@[simp] theorem State.setImh_result : (s.setImh v).result = s.result := rfl
end setImh

section setIml
variable (v : Byte) (s : State)
@[simp] theorem State.setIml_pc : (s.setIml v).pc = s.pc := rfl
@[simp] theorem State.setIml_sp : (s.setIml v).sp = s.sp := rfl
@[simp] theorem State.setIml_a : (s.setIml v).a = s.a := rfl
@[simp] theorem State.setIml_b : (s.setIml v).b = s.b := rfl
@[simp] theorem State.setIml_i : (s.setIml v).i = s.i := rfl
@[simp] theorem State.setIml_j : (s.setIml v).j = s.j := rfl
@[simp] theorem State.setIml_dr : (s.setIml v).dr = s.dr := rfl
@[simp] theorem State.setIml_sr : (s.setIml v).sr = s.sr := rfl
@[simp] theorem State.setIml_ir : (s.setIml v).ir = s.ir := rfl
@[simp] theorem State.setIml_emh : (s.setIml v).emh = s.emh := rfl
@[simp] theorem State.setIml_eml : (s.setIml v).eml = s.eml := rfl
@[simp] theorem State.setIml_imh : (s.setIml v).imh = s.imh := rfl
@[simp] theorem State.setIml_iml : (s.setIml v).iml = v := rfl
@[simp] theorem State.setIml_ar : (s.setIml v).ar = s.ar := rfl
@[simp] theorem State.setIml_run : (s.setIml v).run = s.run := rfl
@[simp] theorem State.setIml_cur : (s.setIml v).cur = s.cur := rfl
@[simp] theorem State.setIml_mem : (s.setIml v).mem = s.mem := rfl
@[simp] theorem State.setIml_video : (s.setIml v).video = s.video := rfl
@[simp] theorem State.setIml_result : (s.setIml v).result = s.result := rfl
end setIml

section setAr
variable (v : Word) (s : State)
@[simp] theorem State.setAr_pc : (s.setAr v).pc = s.pc := rfl
@[simp] theorem State.setAr_sp : (s.setAr v).sp = s.sp := rfl
@[simp] theorem State.setAr_a : (s.setAr v).a = s.a := rfl
@[simp] theorem State.setAr_b : (s.setAr v).b = s.b := rfl
@[simp] theorem State.setAr_i : (s.setAr v).i = s.i := rfl
@[simp] theorem State.setAr_j : (s.setAr v).j = s.j := rfl
@[simp] theorem State.setAr_dr : (s.setAr v).dr = s.dr := rfl
@[simp] theorem State.setAr_sr : (s.setAr v).sr = s.sr := rfl
@[simp] theorem State.setAr_ir : (s.setAr v).ir = s.ir := rfl
@[simp] theorem State.setAr_emh : (s.setAr v).emh = s.emh := rfl
@[simp] theorem State.setAr_eml : (s.setAr v).eml = s.eml := rfl
@[simp] theorem State.setAr_imh : (s.setAr v).imh = s.imh := rfl
@[simp] theorem State.setAr_iml : (s.setAr v).iml = s.iml := rfl
@[simp] theorem State.setAr_ar : (s.setAr v).ar = v := rfl
@[simp] theorem State.setAr_run : (s.setAr v).run = s.run := rfl
@[simp] theorem State.setAr_cur : (s.setAr v).cur = s.cur := rfl
@[simp] theorem State.setAr_mem : (s.setAr v).mem = s.mem := rfl
@[simp] theorem State.setAr_video : (s.setAr v).video = s.video := rfl
@[simp] theorem State.setAr_result : (s.setAr v).result = s.result := rfl
end setAr

section setRun
variable (v : RunState) (s : State)
@[simp] theorem State.setRun_pc : (s.setRun v).pc = s.pc := rfl
@[simp] theorem State.setRun_sp : (s.setRun v).sp = s.sp := rfl
@[simp] theorem State.setRun_a : (s.setRun v).a = s.a := rfl
@[simp] theorem State.setRun_b : (s.setRun v).b = s.b := rfl
@[simp] theorem State.setRun_i : (s.setRun v).i = s.i := rfl
@[simp] theorem State.setRun_j : (s.setRun v).j = s.j := rfl
@[simp] theorem State.setRun_dr : (s.setRun v).dr = s.dr := rfl
@[simp] theorem State.setRun_sr : (s.setRun v).sr = s.sr := rfl
@[simp] theorem State.setRun_ir : (s.setRun v).ir = s.ir := rfl
@[simp] theorem State.setRun_emh : (s.setRun v).emh = s.emh := rfl
@[simp] theorem State.setRun_eml : (s.setRun v).eml = s.eml := rfl
@[simp] theorem State.setRun_imh : (s.setRun v).imh = s.imh := rfl
@[simp] theorem State.setRun_iml : (s.setRun v).iml = s.iml := rfl
@[simp] theorem State.setRun_ar : (s.setRun v).ar = s.ar := rfl
@[simp] theorem State.setRun_run : (s.setRun v).run = v := rfl
@[simp] theorem State.setRun_cur : (s.setRun v).cur = s.cur := rfl
@[simp] theorem State.setRun_mem : (s.setRun v).mem = s.mem := rfl
@[simp] theorem State.setRun_video : (s.setRun v).video = s.video := rfl
@[simp] theorem State.setRun_result : (s.setRun v).result = s.result := rfl
end setRun

section setCur
variable (v : Option Mnemonic) (s : State)
@[simp] theorem State.setCur_pc : (s.setCur v).pc = s.pc := rfl
@[simp] theorem State.setCur_sp : (s.setCur v).sp = s.sp := rfl
@[simp] theorem State.setCur_a : (s.setCur v).a = s.a := rfl
@[simp] theorem State.setCur_b : (s.setCur v).b = s.b := rfl
@[simp] theorem State.setCur_i : (s.setCur v).i = s.i := rfl
@[simp] theorem State.setCur_j : (s.setCur v).j = s.j := rfl
@[simp] theorem State.setCur_dr : (s.setCur v).dr = s.dr := rfl
@[simp] theorem State.setCur_sr : (s.setCur v).sr = s.sr := rfl
@[simp] theorem State.setCur_ir : (s.setCur v).ir = s.ir := rfl
@[simp] theorem State.setCur_emh : (s.setCur v).emh = s.emh := rfl
@[simp] theorem State.setCur_eml : (s.setCur v).eml = s.eml := rfl
@[simp] theorem State.setCur_imh : (s.setCur v).imh = s.imh := rfl
@[simp] theorem State.setCur_iml : (s.setCur v).iml = s.iml := rfl
@[simp] theorem State.setCur_ar : (s.setCur v).ar = s.ar := rfl
@[simp] theorem State.setCur_run : (s.setCur v).run = s.run := rfl
@[simp] theorem State.setCur_cur : (s.setCur v).cur = v := rfl
@[simp] theorem State.setCur_mem : (s.setCur v).mem = s.mem := rfl
@[simp] theorem State.setCur_video : (s.setCur v).video = s.video := rfl
@[simp] theorem State.setCur_result : (s.setCur v).result = s.result := rfl
end setCur

section setMem
variable (v : Memory) (s : State)
@[simp] theorem State.setMem_pc : (s.setMem v).pc = s.pc := rfl
@[simp] theorem State.setMem_sp : (s.setMem v).sp = s.sp := rfl
@[simp] theorem State.setMem_a : (s.setMem v).a = s.a := rfl
@[simp] theorem State.setMem_b : (s.setMem v).b = s.b := rfl
@[simp] theorem State.setMem_i : (s.setMem v).i = s.i := rfl
@[simp] theorem State.setMem_j : (s.setMem v).j = s.j := rfl
@[simp] theorem State.setMem_dr : (s.setMem v).dr = s.dr := rfl
@[simp] theorem State.setMem_sr : (s.setMem v).sr = s.sr := rfl
@[simp] theorem State.setMem_ir : (s.setMem v).ir = s.ir := rfl
@[simp] theorem State.setMem_emh : (s.setMem v).emh = s.emh := rfl
@[simp] theorem State.setMem_eml : (s.setMem v).eml = s.eml := rfl
@[simp] theorem State.setMem_imh : (s.setMem v).imh = s.imh := rfl
@[simp] theorem State.setMem_iml : (s.setMem v).iml = s.iml := rfl
@[simp] theorem State.setMem_ar : (s.setMem v).ar = s.ar := rfl
@[simp] theorem State.setMem_run : (s.setMem v).run = s.run := rfl
@[simp] theorem State.setMem_cur : (s.setMem v).cur = s.cur := rfl
@[simp] theorem State.setMem_mem : (s.setMem v).mem = v := rfl
@[simp] theorem State.setMem_video : (s.setMem v).video = s.video := rfl
@[simp] theorem State.setMem_result : (s.setMem v).result = s.result := rfl
end setMem

section setVideo
variable (v : Video) (s : State)
@[simp] theorem State.setVideo_pc : (s.setVideo v).pc = s.pc := rfl
@[simp] theorem State.setVideo_sp : (s.setVideo v).sp = s.sp := rfl
@[simp] theorem State.setVideo_a : (s.setVideo v).a = s.a := rfl
@[simp] theorem State.setVideo_b : (s.setVideo v).b = s.b := rfl
@[simp] theorem State.setVideo_i : (s.setVideo v).i = s.i := rfl
@[simp] theorem State.setVideo_j : (s.setVideo v).j = s.j := rfl
@[simp] theorem State.setVideo_dr : (s.setVideo v).dr = s.dr := rfl
@[simp] theorem State.setVideo_sr : (s.setVideo v).sr = s.sr := rfl
@[simp] theorem State.setVideo_ir : (s.setVideo v).ir = s.ir := rfl
@[simp] theorem State.setVideo_emh : (s.setVideo v).emh = s.emh := rfl
@[simp] theorem State.setVideo_eml : (s.setVideo v).eml = s.eml := rfl
@[simp] theorem State.setVideo_imh : (s.setVideo v).imh = s.imh := rfl
@[simp] theorem State.setVideo_iml : (s.setVideo v).iml = s.iml := rfl
@[simp] theorem State.setVideo_ar : (s.setVideo v).ar = s.ar := rfl
@[simp] theorem State.setVideo_run : (s.setVideo v).run = s.run := rfl
@[simp] theorem State.setVideo_cur : (s.setVideo v).cur = s.cur := rfl
@[simp] theorem State.setVideo_mem : (s.setVideo v).mem = s.mem := rfl
@[simp] theorem State.setVideo_video : (s.setVideo v).video = v := rfl
@[simp] theorem State.setVideo_result : (s.setVideo v).result = s.result := rfl
end setVideo

section setResult
variable (v : Option StepResult) (s : State)
@[simp] theorem State.setResult_pc : (s.setResult v).pc = s.pc := rfl
@[simp] theorem State.setResult_sp : (s.setResult v).sp = s.sp := rfl
@[simp] theorem State.setResult_a : (s.setResult v).a = s.a := rfl
@[simp] theorem State.setResult_b : (s.setResult v).b = s.b := rfl
@[simp] theorem State.setResult_i : (s.setResult v).i = s.i := rfl
@[simp] theorem State.setResult_j : (s.setResult v).j = s.j := rfl
@[simp] theorem State.setResult_dr : (s.setResult v).dr = s.dr := rfl
@[simp] theorem State.setResult_sr : (s.setResult v).sr = s.sr := rfl
@[simp] theorem State.setResult_ir : (s.setResult v).ir = s.ir := rfl
@[simp] theorem State.setResult_emh : (s.setResult v).emh = s.emh := rfl
@[simp] theorem State.setResult_eml : (s.setResult v).eml = s.eml := rfl
@[simp] theorem State.setResult_imh : (s.setResult v).imh = s.imh := rfl
@[simp] theorem State.setResult_iml : (s.setResult v).iml = s.iml := rfl
@[simp] theorem State.setResult_ar : (s.setResult v).ar = s.ar := rfl
@[simp] theorem State.setResult_run : (s.setResult v).run = s.run := rfl
@[simp] theorem State.setResult_cur : (s.setResult v).cur = s.cur := rfl
@[simp] theorem State.setResult_mem : (s.setResult v).mem = s.mem := rfl
@[simp] theorem State.setResult_video : (s.setResult v).video = s.video := rfl
@[simp] theorem State.setResult_result : (s.setResult v).result = v := rfl
end setResult

/-! `writeReg16` and `writeReg8` by register. -/

@[simp] theorem State.writeReg16_a (v : Word) (s : State) : s.writeReg16 .a v = s.setA v := rfl
@[simp] theorem State.readReg16_a (s : State) : s.readReg16 .a = s.a := rfl
@[simp] theorem State.writeReg16_b (v : Word) (s : State) : s.writeReg16 .b v = s.setB v := rfl
@[simp] theorem State.readReg16_b (s : State) : s.readReg16 .b = s.b := rfl
@[simp] theorem State.writeReg16_i (v : Word) (s : State) : s.writeReg16 .i v = s.setI v := rfl
@[simp] theorem State.readReg16_i (s : State) : s.readReg16 .i = s.i := rfl
@[simp] theorem State.writeReg16_j (v : Word) (s : State) : s.writeReg16 .j v = s.setJ v := rfl
@[simp] theorem State.readReg16_j (s : State) : s.readReg16 .j = s.j := rfl
@[simp] theorem State.writeReg16_dr (v : Word) (s : State) : s.writeReg16 .dr v = s.setDr v := rfl
@[simp] theorem State.readReg16_dr (s : State) : s.readReg16 .dr = s.dr := rfl
@[simp] theorem State.writeReg16_sp (v : Word) (s : State) : s.writeReg16 .sp v = s.setSp v := rfl
@[simp] theorem State.readReg16_sp (s : State) : s.readReg16 .sp = s.sp := rfl
@[simp] theorem State.writeReg8_ah (v : Byte) (s : State) : s.writeReg8 .ah v = s.setA (wordOf v (loByte s.a)) := rfl
@[simp] theorem State.readReg8_ah (s : State) : s.readReg8 .ah = hiByte s.a := rfl
@[simp] theorem State.writeReg8_al (v : Byte) (s : State) : s.writeReg8 .al v = s.setA (wordOf (hiByte s.a) v) := rfl
@[simp] theorem State.readReg8_al (s : State) : s.readReg8 .al = loByte s.a := rfl
@[simp] theorem State.writeReg8_bh (v : Byte) (s : State) : s.writeReg8 .bh v = s.setB (wordOf v (loByte s.b)) := rfl
@[simp] theorem State.readReg8_bh (s : State) : s.readReg8 .bh = hiByte s.b := rfl
@[simp] theorem State.writeReg8_bl (v : Byte) (s : State) : s.writeReg8 .bl v = s.setB (wordOf (hiByte s.b) v) := rfl
@[simp] theorem State.readReg8_bl (s : State) : s.readReg8 .bl = loByte s.b := rfl

/-! A register write touches its own register alone. -/

section writeReg16
variable (r : Reg16) (v : Word) (s : State)
@[simp] theorem State.readReg16_writeReg16 : (s.writeReg16 r v).readReg16 r = v := by cases r <;> rfl
theorem State.readReg16_writeReg16_other (q : Reg16) (h : q ≠ r) :
    (s.writeReg16 r v).readReg16 q = s.readReg16 q := by cases r <;> cases q <;> first | rfl | contradiction
@[simp] theorem State.writeReg16_pc_eq : (s.writeReg16 r v).pc = s.pc := by cases r <;> rfl
@[simp] theorem State.writeReg16_sr_eq : (s.writeReg16 r v).sr = s.sr := by cases r <;> rfl
@[simp] theorem State.writeReg16_ir_eq : (s.writeReg16 r v).ir = s.ir := by cases r <;> rfl
@[simp] theorem State.writeReg16_emh_eq : (s.writeReg16 r v).emh = s.emh := by cases r <;> rfl
@[simp] theorem State.writeReg16_eml_eq : (s.writeReg16 r v).eml = s.eml := by cases r <;> rfl
@[simp] theorem State.writeReg16_imh_eq : (s.writeReg16 r v).imh = s.imh := by cases r <;> rfl
@[simp] theorem State.writeReg16_iml_eq : (s.writeReg16 r v).iml = s.iml := by cases r <;> rfl
@[simp] theorem State.writeReg16_ar_eq : (s.writeReg16 r v).ar = s.ar := by cases r <;> rfl
@[simp] theorem State.writeReg16_run_eq : (s.writeReg16 r v).run = s.run := by cases r <;> rfl
@[simp] theorem State.writeReg16_cur_eq : (s.writeReg16 r v).cur = s.cur := by cases r <;> rfl
@[simp] theorem State.writeReg16_mem_eq : (s.writeReg16 r v).mem = s.mem := by cases r <;> rfl
@[simp] theorem State.writeReg16_video_eq : (s.writeReg16 r v).video = s.video := by cases r <;> rfl
@[simp] theorem State.writeReg16_result_eq : (s.writeReg16 r v).result = s.result := by cases r <;> rfl
end writeReg16

section writeReg8
variable (r : Reg8) (v : Byte) (s : State)
@[simp] theorem State.writeReg8_pc_eq : (s.writeReg8 r v).pc = s.pc := by cases r <;> rfl
@[simp] theorem State.writeReg8_sp_eq : (s.writeReg8 r v).sp = s.sp := by cases r <;> rfl
@[simp] theorem State.writeReg8_i_eq : (s.writeReg8 r v).i = s.i := by cases r <;> rfl
@[simp] theorem State.writeReg8_j_eq : (s.writeReg8 r v).j = s.j := by cases r <;> rfl
@[simp] theorem State.writeReg8_dr_eq : (s.writeReg8 r v).dr = s.dr := by cases r <;> rfl
@[simp] theorem State.writeReg8_sr_eq : (s.writeReg8 r v).sr = s.sr := by cases r <;> rfl
@[simp] theorem State.writeReg8_ir_eq : (s.writeReg8 r v).ir = s.ir := by cases r <;> rfl
@[simp] theorem State.writeReg8_emh_eq : (s.writeReg8 r v).emh = s.emh := by cases r <;> rfl
@[simp] theorem State.writeReg8_eml_eq : (s.writeReg8 r v).eml = s.eml := by cases r <;> rfl
@[simp] theorem State.writeReg8_imh_eq : (s.writeReg8 r v).imh = s.imh := by cases r <;> rfl
@[simp] theorem State.writeReg8_iml_eq : (s.writeReg8 r v).iml = s.iml := by cases r <;> rfl
@[simp] theorem State.writeReg8_ar_eq : (s.writeReg8 r v).ar = s.ar := by cases r <;> rfl
@[simp] theorem State.writeReg8_run_eq : (s.writeReg8 r v).run = s.run := by cases r <;> rfl
@[simp] theorem State.writeReg8_cur_eq : (s.writeReg8 r v).cur = s.cur := by cases r <;> rfl
@[simp] theorem State.writeReg8_mem_eq : (s.writeReg8 r v).mem = s.mem := by cases r <;> rfl
@[simp] theorem State.writeReg8_video_eq : (s.writeReg8 r v).video = s.video := by cases r <;> rfl
@[simp] theorem State.writeReg8_result_eq : (s.writeReg8 r v).result = s.result := by cases r <;> rfl
end writeReg8

/-! The latches of an address. -/

section latchAddress
variable (w : Word) (s : State)
@[simp] theorem latchAddress_pc : (latchAddress w s).pc = s.pc := rfl
@[simp] theorem latchAddress_sp : (latchAddress w s).sp = s.sp := rfl
@[simp] theorem latchAddress_a : (latchAddress w s).a = s.a := rfl
@[simp] theorem latchAddress_b : (latchAddress w s).b = s.b := rfl
@[simp] theorem latchAddress_i : (latchAddress w s).i = s.i := rfl
@[simp] theorem latchAddress_j : (latchAddress w s).j = s.j := rfl
@[simp] theorem latchAddress_dr : (latchAddress w s).dr = s.dr := rfl
@[simp] theorem latchAddress_sr : (latchAddress w s).sr = s.sr := rfl
@[simp] theorem latchAddress_ir : (latchAddress w s).ir = s.ir := rfl
@[simp] theorem latchAddress_emh : (latchAddress w s).emh = hiByte w := rfl
@[simp] theorem latchAddress_eml : (latchAddress w s).eml = loByte w := rfl
@[simp] theorem latchAddress_imh : (latchAddress w s).imh = s.imh := rfl
@[simp] theorem latchAddress_iml : (latchAddress w s).iml = s.iml := rfl
@[simp] theorem latchAddress_ar : (latchAddress w s).ar = s.ar := rfl
@[simp] theorem latchAddress_run : (latchAddress w s).run = s.run := rfl
@[simp] theorem latchAddress_cur : (latchAddress w s).cur = s.cur := rfl
@[simp] theorem latchAddress_mem : (latchAddress w s).mem = s.mem := rfl
@[simp] theorem latchAddress_video : (latchAddress w s).video = s.video := rfl
@[simp] theorem latchAddress_result : (latchAddress w s).result = s.result := rfl
end latchAddress

/-! `reset()` by field (R360). -/

section hostReset
variable (c : Config) (s : State)
@[simp] theorem State.hostReset_pc : (s.hostReset c).pc = c.resetVector := rfl
@[simp] theorem State.hostReset_sp : (s.hostReset c).sp = 0x0000#16 := rfl
@[simp] theorem State.hostReset_a : (s.hostReset c).a = 0x0000#16 := rfl
@[simp] theorem State.hostReset_b : (s.hostReset c).b = 0x0000#16 := rfl
@[simp] theorem State.hostReset_i : (s.hostReset c).i = 0x0000#16 := rfl
@[simp] theorem State.hostReset_j : (s.hostReset c).j = 0x0000#16 := rfl
@[simp] theorem State.hostReset_dr : (s.hostReset c).dr = 0x0000#16 := rfl
@[simp] theorem State.hostReset_sr : (s.hostReset c).sr = resetStatus s.sr := rfl
@[simp] theorem State.hostReset_ir : (s.hostReset c).ir = 0x00#8 := rfl
@[simp] theorem State.hostReset_emh : (s.hostReset c).emh = 0x00#8 := rfl
@[simp] theorem State.hostReset_eml : (s.hostReset c).eml = 0x00#8 := rfl
@[simp] theorem State.hostReset_imh : (s.hostReset c).imh = 0x00#8 := rfl
@[simp] theorem State.hostReset_iml : (s.hostReset c).iml = 0x00#8 := rfl
@[simp] theorem State.hostReset_ar : (s.hostReset c).ar = 0x0000#16 := rfl
@[simp] theorem State.hostReset_run : (s.hostReset c).run = .running := rfl
@[simp] theorem State.hostReset_cur : (s.hostReset c).cur = s.cur := rfl
@[simp] theorem State.hostReset_mem : (s.hostReset c).mem = s.mem := rfl
@[simp] theorem State.hostReset_video : (s.hostReset c).video = s.video := rfl
@[simp] theorem State.hostReset_result : (s.hostReset c).result = s.result := rfl
end hostReset

end Sys2Proof.Machine
end

