-- ==== Sys2Proof/Laws/Bus.lean ====
section
/-! SUPPORT. Laws of the Memory Bus: what a read depends on, what each access does in each region, and that an access changes
memory or the peripheral alone. -/

namespace Sys2Proof.Machine

/-- A bus read depends on memory and the peripheral alone. -/
theorem busRead_congr {c : Config} {s t : State} (hm : t.mem = s.mem) (hv : t.video = s.video) (a : Word) :
    busRead c t a = busRead c s a := by simp only [busRead, hm, hv]

section busRead
variable (c : Config) (s : State) (a : Word)
@[simp] theorem busRead_setPc (v : Word) : busRead c (s.setPc v) a = busRead c s a := rfl
@[simp] theorem busRead_setSp (v : Word) : busRead c (s.setSp v) a = busRead c s a := rfl
@[simp] theorem busRead_setA (v : Word) : busRead c (s.setA v) a = busRead c s a := rfl
@[simp] theorem busRead_setB (v : Word) : busRead c (s.setB v) a = busRead c s a := rfl
@[simp] theorem busRead_setI (v : Word) : busRead c (s.setI v) a = busRead c s a := rfl
@[simp] theorem busRead_setJ (v : Word) : busRead c (s.setJ v) a = busRead c s a := rfl
@[simp] theorem busRead_setDr (v : Word) : busRead c (s.setDr v) a = busRead c s a := rfl
@[simp] theorem busRead_setSr (v : Byte) : busRead c (s.setSr v) a = busRead c s a := rfl
@[simp] theorem busRead_setIr (v : Byte) : busRead c (s.setIr v) a = busRead c s a := rfl
@[simp] theorem busRead_setEmh (v : Byte) : busRead c (s.setEmh v) a = busRead c s a := rfl
@[simp] theorem busRead_setEml (v : Byte) : busRead c (s.setEml v) a = busRead c s a := rfl
@[simp] theorem busRead_setImh (v : Byte) : busRead c (s.setImh v) a = busRead c s a := rfl
@[simp] theorem busRead_setIml (v : Byte) : busRead c (s.setIml v) a = busRead c s a := rfl
@[simp] theorem busRead_setAr (v : Word) : busRead c (s.setAr v) a = busRead c s a := rfl
@[simp] theorem busRead_setRun (v : RunState) : busRead c (s.setRun v) a = busRead c s a := rfl
@[simp] theorem busRead_setCur (v : Option Mnemonic) : busRead c (s.setCur v) a = busRead c s a := rfl
@[simp] theorem busRead_setResult (v : Option StepResult) : busRead c (s.setResult v) a = busRead c s a := rfl
end busRead

/-- `lo ≤ a ≤ hi`. -/
theorem inRange_iff {lo hi a : Nat} : inRange lo hi a = true ↔ lo ≤ a ∧ a ≤ hi := by
  simp [inRange]

/-- No address outside the port range of the reference machine has a video mode. -/
theorem portMode_reference_none {a : Nat} (h : a < 0xE000 ∨ 0xE009 ≤ a) : portMode Config.reference a = none := by
  unfold portMode
  split
  · rename_i hle
    simp only [Config.reference] at hle ⊢
    obtain ⟨k, hk⟩ : ∃ k, a - 0xE000 = k + 9 := ⟨a - 0xE009, by omega⟩
    rw [hk]; rfl
  · rfl

/-- Every address of the port range has the video mode of its offset. -/
theorem portMode_reference_some {a : Nat} (h : 0xE000 ≤ a) : portMode Config.reference a = videoModeAt (a - 0xE000) := by
  unfold portMode
  rw [if_pos (by simpa [Config.reference] using h)]
  rfl

/-- Every offset below nine selects a video mode. -/
theorem videoModeAt_isSome {k : Nat} (h : k < 9) : ∃ mode, videoModeAt k = some mode := by
  interval_cases k <;> exact ⟨_, rfl⟩

theorem regionOf_reference_rom {a : Nat} (h : 0xF000 ≤ a) (h' : a ≤ 0xFFFF) :
    regionOf Config.reference a = .rom := by
  unfold regionOf
  rw [if_pos (by simp only [inRange_iff, Config.reference]; omega)]

theorem regionOf_reference_charMap {a : Nat} (h : 0xE800 ≤ a) (h' : a < 0xF000) :
    regionOf Config.reference a = .charMap := by
  unfold regionOf
  rw [if_neg (by simp only [inRange_iff, Config.reference]; omega), if_pos (by simp only [inRange_iff, Config.reference]; omega)]

/-- The port of the reference machine. -/
theorem regionOf_reference_port {a : Nat} {mode : VideoMode} (h : 0xE000 ≤ a) (h' : a ≤ 0xE008)
    (hm : videoModeAt (a - 0xE000) = some mode) : regionOf Config.reference a = .video mode := by
  unfold regionOf
  rw [if_neg (by simp only [inRange_iff, Config.reference]; omega), if_neg (by simp only [inRange_iff, Config.reference]; omega),
    portMode_reference_some h, hm]

/-- RAM and the cartridge range of the reference machine are one of the two RAM-like regions. -/
theorem regionOf_reference_ram {a : Nat} (h : a < 0xE000 ∨ (0xE009 ≤ a ∧ a < 0xE800)) :
    regionOf Config.reference a = if 0x8000 ≤ a ∧ a ≤ 0xBFFF then .cartridge else .ram := by
  unfold regionOf
  rw [if_neg (by simp only [inRange_iff, Config.reference]; omega), if_neg (by simp only [inRange_iff, Config.reference]; omega),
    portMode_reference_none (by omega)]
  simp only [inRange_iff]
  rfl

/-- A read outside the port gives the memory byte (R60). -/
theorem busRead_of_not_port {s : State} {a : Word} (h : a.toNat < 0xE000 ∨ 0xE009 ≤ a.toNat) :
    busRead Config.reference s a = .ok (s.mem.read a.toNat) := by
  have hlt : a.toNat < 65536 := a.isLt
  unfold busRead
  by_cases h1 : 0xF000 ≤ a.toNat
  · rw [regionOf_reference_rom h1 (by omega)]
  · by_cases h2 : 0xE800 ≤ a.toNat
    · rw [regionOf_reference_charMap h2 (by omega)]
    · rw [regionOf_reference_ram (by omega)]
      split <;> first | rfl | (rename_i hr; split at hr <;> cases hr)

/-- A read in the port gives the peripheral's answer (R60). -/
theorem busRead_of_port {s : State} {a : Word} {mode : VideoMode} (h : 0xE000 ≤ a.toNat) (h' : a.toNat ≤ 0xE008)
    (hm : videoModeAt (a.toNat - 0xE000) = some mode) :
    busRead Config.reference s a = videoRead Config.reference mode s.video := by
  unfold busRead
  rw [regionOf_reference_port h h' hm]

/-- A write to ROM or character map is rejected (R61). -/
theorem busWrite_of_readOnly {s : State} {a : Word} {b : Byte} (h : 0xE800 ≤ a.toNat) :
    busWrite Config.reference s a b = .error .readOnlyRegionWrite := by
  have hlt : a.toNat < 65536 := a.isLt
  unfold busWrite
  by_cases h1 : 0xF000 ≤ a.toNat
  · rw [regionOf_reference_rom h1 (by omega)]
  · rw [regionOf_reference_charMap h (by omega)]

/-- A write in the port is a command of the peripheral (R61). -/
theorem busWrite_of_port {s : State} {a : Word} {b : Byte} {mode : VideoMode} (h : 0xE000 ≤ a.toNat)
    (h' : a.toNat ≤ 0xE008) (hm : videoModeAt (a.toNat - 0xE000) = some mode) :
    busWrite Config.reference s a b =
      (videoWrite Config.reference mode b s.video).map fun v => s.setVideo v := by
  unfold busWrite
  rw [regionOf_reference_port h h' hm]
  cases hv : videoWrite Config.reference mode b s.video <;> simp only [hv, Except.map]

/-- A write to RAM or the cartridge range stores the byte (R61). -/
theorem busWrite_of_ram {s : State} {a : Word} {b : Byte}
    (h : a.toNat < 0xE000 ∨ (0xE009 ≤ a.toNat ∧ a.toNat < 0xE800)) :
    busWrite Config.reference s a b = .ok (s.setMem (s.mem.write a.toNat b)) := by
  unfold busWrite
  rw [regionOf_reference_ram h]
  split <;> first | rfl | (rename_i hr; split at hr <;> cases hr)

/-- All a bus write can do, in any configuration: store one byte in a RAM-like region, or command the peripheral. -/
theorem busWrite_cases {c : Config} {s t : State} {a : Word} {b : Byte} (h : busWrite c s a b = .ok t) :
    ((regionOf c a.toNat = .ram ∨ regionOf c a.toNat = .cartridge) ∧ t = s.setMem (s.mem.write a.toNat b)) ∨
    ∃ mode v, regionOf c a.toNat = .video mode ∧ videoWrite c mode b s.video = .ok v ∧ t = s.setVideo v := by
  unfold busWrite at h
  split at h
  · cases h
  · cases h
  · rename_i mode hr
    split at h
    · rename_i v hv
      exact .inr ⟨mode, v, hr, hv, by cases h; rfl⟩
    · cases h
  · rename_i hr; exact .inl ⟨.inr hr, by cases h; rfl⟩
  · rename_i hr; exact .inl ⟨.inl hr, by cases h; rfl⟩

/-- All a video write can do: the cell at (X, Y) takes D1, every cell takes D1, or one latch takes the data byte. -/
theorem videoWrite_cases {c : Config} {mode : VideoMode} {b : Byte} {v w : Video} (h : videoWrite c mode b v = .ok w) :
    (∃ i, i < frameCells c ∧ w = { v with fb := v.fb.write i v.d1 }) ∨
    w = { v with fb := Memory.filled (frameCells c) v.d1 } ∨
    w = { v with x := b } ∨ w = { v with y := b } ∨ w = { v with d1 := b } ∨ w = { v with d2 := b } ∨
    w = { v with d3 := b } ∨ w = { v with d4 := b } := by
  cases mode <;> simp only [videoWrite, Except.ok.injEq, reduceCtorEq] at h
  · unfold videoPlot frameIndex at h
    by_cases hi : v.x.toNat + v.y.toNat * c.rasterW < frameCells c
    · simp only [if_pos hi, Except.ok.injEq] at h
      exact .inl ⟨_, hi, h.symm⟩
    · simp only [if_neg hi, reduceCtorEq] at h
  all_goals subst h; simp

section busWrite
variable (c : Config) (s : State) (a : Word) (b : Byte)
/-- Results of a bus write in a state that differs in one register. -/
theorem busWrite_map {f : State → State} (hm : (f s).mem = s.mem) (hv : (f s).video = s.video)
    (hfm : ∀ m, f (s.setMem m) = (f s).setMem m) (hfv : ∀ v, f (s.setVideo v) = (f s).setVideo v) :
    busWrite c (f s) a b = (busWrite c s a b).map f := by
  unfold busWrite
  split
  · rfl
  · rfl
  · rw [hv]
    split
    · rw [Except.map, hfv]
    · rfl
  · rw [hm, Except.map, hfm]
  · rw [hm, Except.map, hfm]

end busWrite

end Sys2Proof.Machine
end

