-- ==== Sys2Proof/Laws/Ops.lean ====
section
/-! SUPPORT. One law per shared operation of Machine/Ops.lean and Machine/Operands.lean: everything it can answer. -/

namespace Sys2Proof.Machine

@[simp] theorem Access.andThen_ok {α β : Type} (v : α) (s : State) (rest : α → State → Access β) :
    (Access.ok v s).andThen rest = rest v s := rfl

@[simp] theorem Access.andThen_err {α β : Type} (k : ErrorKind) (s : State) (rest : α → State → Access β) :
    (Access.err k s).andThen rest = .err k s := rfl

/-- A sequence succeeds exactly when both parts do. -/
theorem Access.andThen_eq_ok {α β : Type} {p : Access α} {rest : α → State → Access β} {v : β} {t : State} :
    p.andThen rest = .ok v t ↔ ∃ u s, p = .ok u s ∧ rest u s = .ok v t := by
  cases p with
  | ok u s => simp
  | err k s => simp

/-- A sequence fails exactly when one part does, the second only after the first succeeded. -/
theorem Access.andThen_eq_err {α β : Type} {p : Access α} {rest : α → State → Access β} {k : ErrorKind} {t : State} :
    p.andThen rest = .err k t ↔ p = .err k t ∨ ∃ u s, p = .ok u s ∧ rest u s = .err k t := by
  cases p with
  | ok u s => simp
  | err k s => simp

/-! Reads. -/

theorem readByte_ok {c : Config} {s : State} {a : Word} {b : Byte} (h : busRead c s a = .ok b) :
    readByte c a s = .ok b s := by rw [readByte, h]

theorem readByte_err {c : Config} {s : State} {a : Word} {k : ErrorKind} (h : busRead c s a = .error k) :
    readByte c a s = .err k s := by rw [readByte, h]

/-- A byte read answers what the bus does and changes nothing (R69). -/
theorem readByte_cases (c : Config) (a : Word) (s : State) :
    (∃ b, busRead c s a = .ok b ∧ readByte c a s = .ok b s) ∨
    ∃ k, busRead c s a = .error k ∧ readByte c a s = .err k s := by
  cases h : busRead c s a with
  | ok b => exact .inl ⟨b, rfl, readByte_ok h⟩
  | error k => exact .inr ⟨k, rfl, readByte_err h⟩

theorem readWord_ok {c : Config} {s : State} {a : Word} {h l : Byte} (hh : busRead c s a = .ok h)
    (hl : busRead c s (a + 1#16) = .ok l) : readWord c a s = .ok (wordOf h l) s := by
  rw [readWord, readByte_ok hh, Access.andThen_ok, readByte_ok hl, Access.andThen_ok]

/-- A word read fails with the first failing byte read and changes nothing (R64). -/
theorem readWord_err {c : Config} {s : State} {a : Word} {k : ErrorKind}
    (h : busRead c s a = .error k ∨ ∃ b, busRead c s a = .ok b ∧ busRead c s (a + 1#16) = .error k) :
    readWord c a s = .err k s := by
  rcases h with h | ⟨b, hb, h⟩
  · rw [readWord, readByte_err h, Access.andThen_err]
  · rw [readWord, readByte_ok hb, Access.andThen_ok, readByte_err h, Access.andThen_err]

/-- Everything a word read can answer. -/
theorem readWord_cases (c : Config) (a : Word) (s : State) :
    (∃ h l, busRead c s a = .ok h ∧ busRead c s (a + 1#16) = .ok l ∧ readWord c a s = .ok (wordOf h l) s) ∨
    ∃ k, readWord c a s = .err k s := by
  rcases readByte_cases c a s with ⟨h, hh, -⟩ | ⟨k, hk, -⟩
  · rcases readByte_cases c (a + 1#16) s with ⟨l, hl, -⟩ | ⟨k, hk, -⟩
    · exact .inl ⟨h, l, hh, hl, readWord_ok hh hl⟩
    · exact .inr ⟨k, readWord_err (.inr ⟨h, hh, hk⟩)⟩
  · exact .inr ⟨k, readWord_err (.inl hk)⟩

/-! Writes. -/

theorem writeByte_ok {c : Config} {s t : State} {a : Word} {b : Byte} (h : busWrite c s a b = .ok t) :
    writeByte c a b s = .ok () t := by rw [writeByte, h]

theorem writeByte_err {c : Config} {s : State} {a : Word} {b : Byte} {k : ErrorKind} (h : busWrite c s a b = .error k) :
    writeByte c a b s = .err k s := by rw [writeByte, h]

/-- A byte write answers what the bus does; a failing one changes nothing. -/
theorem writeByte_cases (c : Config) (a : Word) (b : Byte) (s : State) :
    (∃ t, busWrite c s a b = .ok t ∧ writeByte c a b s = .ok () t) ∨
    ∃ k, busWrite c s a b = .error k ∧ writeByte c a b s = .err k s := by
  cases h : busWrite c s a b with
  | ok t => exact .inl ⟨t, rfl, writeByte_ok h⟩
  | error k => exact .inr ⟨k, rfl, writeByte_err h⟩

theorem writeWord_ok {c : Config} {s t u : State} {a v : Word} (h1 : busWrite c s a (hiByte v) = .ok t)
    (h2 : busWrite c t (a + 1#16) (loByte v) = .ok u) : writeWord c a v s = .ok () u := by
  rw [writeWord, writeByte_ok h1, Access.andThen_ok, writeByte_ok h2]

theorem writeWord_err_first {c : Config} {s : State} {a v : Word} {k : ErrorKind}
    (h : busWrite c s a (hiByte v) = .error k) : writeWord c a v s = .err k s := by
  rw [writeWord, writeByte_err h, Access.andThen_err]

theorem writeWord_err_second {c : Config} {s t : State} {a v : Word} {k : ErrorKind}
    (h1 : busWrite c s a (hiByte v) = .ok t) (h2 : busWrite c t (a + 1#16) (loByte v) = .error k) :
    writeWord c a v s = .err k t := by
  rw [writeWord, writeByte_ok h1, Access.andThen_ok, writeByte_err h2]

/-! The stack. -/

theorem push8_ok {c : Config} {s t : State} {b : Byte} (h : busWrite c s s.sp b = .ok t) :
    push8 c b s = .ok () (t.setSp (t.sp + 1#16)) := by rw [push8, writeByte_ok h, Access.andThen_ok]

theorem push8_err {c : Config} {s : State} {b : Byte} {k : ErrorKind} (h : busWrite c s s.sp b = .error k) :
    push8 c b s = .err k s := by rw [push8, writeByte_err h, Access.andThen_err]

theorem pop8_ok {c : Config} {s : State} {b : Byte} (h : busRead c s (s.sp - 1#16) = .ok b) :
    pop8 c s = .ok b (s.setSp (s.sp - 1#16)) := by rw [pop8, readByte_ok h, Access.andThen_ok]

theorem pop8_err {c : Config} {s : State} {k : ErrorKind} (h : busRead c s (s.sp - 1#16) = .error k) :
    pop8 c s = .err k s := by rw [pop8, readByte_err h, Access.andThen_err]

theorem pop16_ok {c : Config} {s : State} {h l : Byte} (hl : busRead c s (s.sp - 1#16) = .ok l)
    (hh : busRead c s (s.sp - 2#16) = .ok h) : pop16 c s = .ok (wordOf h l) (s.setSp (s.sp - 2#16)) := by
  rw [pop16, readByte_ok hl, Access.andThen_ok, readByte_ok hh, Access.andThen_ok]

/-- A failing pop changes nothing (R241). -/
theorem pop16_err {c : Config} {s : State} {k : ErrorKind}
    (h : busRead c s (s.sp - 1#16) = .error k ∨
      ∃ l, busRead c s (s.sp - 1#16) = .ok l ∧ busRead c s (s.sp - 2#16) = .error k) : pop16 c s = .err k s := by
  rcases h with h | ⟨l, hl, h⟩
  · rw [pop16, readByte_err h, Access.andThen_err]
  · rw [pop16, readByte_ok hl, Access.andThen_ok, readByte_err h, Access.andThen_err]

/-- A bus write changes no register (R61). -/
theorem busWrite_sp {c : Config} {s t : State} {a : Word} {b : Byte} (h : busWrite c s a b = .ok t) : t.sp = s.sp := by
  rcases busWrite_cases h with ⟨-, rfl⟩ | ⟨_, _, -, -, rfl⟩ <;> rfl

theorem push16_ok {c : Config} {s t u : State} {v : Word} (h1 : busWrite c s s.sp (hiByte v) = .ok t)
    (h2 : busWrite c (t.setSp (s.sp + 1#16)) (s.sp + 1#16) (loByte v) = .ok u) :
    push16 c v s = .ok () (u.setSp (s.sp + 2#16)) := by
  rw [push16, push8_ok h1, Access.andThen_ok, busWrite_sp h1, push8_ok (s := t.setSp (s.sp + 1#16)) h2,
    busWrite_sp h2, State.setSp_sp, BitVec.add_assoc]
  rfl

theorem push16_err_first {c : Config} {s : State} {v : Word} {k : ErrorKind}
    (h : busWrite c s s.sp (hiByte v) = .error k) : push16 c v s = .err k s := by
  rw [push16, push8_err h, Access.andThen_err]

/-- A partial push: the first byte stays and SP has advanced by one (R241). -/
theorem push16_err_second {c : Config} {s t : State} {v : Word} {k : ErrorKind}
    (h1 : busWrite c s s.sp (hiByte v) = .ok t)
    (h2 : busWrite c (t.setSp (s.sp + 1#16)) (s.sp + 1#16) (loByte v) = .error k) :
    push16 c v s = .err k (t.setSp (s.sp + 1#16)) := by
  rw [push16, push8_ok h1, Access.andThen_ok, busWrite_sp h1, push8_err (s := t.setSp (s.sp + 1#16)) h2]

/-! The end of a step. -/

@[simp] theorem finish_ok (m : Mnemonic) (s : State) :
    finish m (.ok () s) = .next (s.setResult (some (.ok m))) := rfl

@[simp] theorem finish_err (m : Mnemonic) (k : ErrorKind) (s : State) :
    finish m (.err k s) = .next (s.setResult (some (.error m k))) := rfl

theorem privileged_supervisor {s : State} {body : State → Outcome} (h : getFlag .s s.sr = true) :
    privileged s body = body s := by rw [privileged, if_pos h]

theorem privileged_user {s : State} {body : State → Outcome} (h : getFlag .s s.sr = false) :
    privileged s body = takeFault .privilegeFault s := by rw [privileged, if_neg (by simp [h])]

/-! Operands. -/

@[simp] theorem busRead_latchAddress (c : Config) (s : State) (w a : Word) :
    busRead c (latchAddress w s) a = busRead c s a := rfl

@[simp] theorem resolve_abs (c : Config) (w : Word) (s : State) :
    resolve c .abs w s = .ok () ((latchAddress w s).setAr w) := rfl

@[simp] theorem resolve_absi (c : Config) (w : Word) (s : State) :
    resolve c .absi w s = .ok () ((latchAddress w s).setAr (w + s.i)) := rfl

@[simp] theorem resolve_absj (c : Config) (w : Word) (s : State) :
    resolve c .absj w s = .ok () ((latchAddress w s).setAr (w + s.j)) := rfl

theorem resolve_ind_ok {c : Config} {s : State} {w : Word} {h l : Byte} (hh : busRead c s w = .ok h)
    (hl : busRead c s (w + 1#16) = .ok l) :
    resolve c .ind w s = .ok () ((latchAddress w s).setAr (wordOf h l)) := by
  rw [resolve, readWord_ok (s := latchAddress w s) hh hl, Access.andThen_ok]

theorem resolve_ind_err {c : Config} {s : State} {w : Word} {k : ErrorKind}
    (h : busRead c s w = .error k ∨ ∃ b, busRead c s w = .ok b ∧ busRead c s (w + 1#16) = .error k) :
    resolve c .ind w s = .err k (latchAddress w s) := by
  rw [resolve, readWord_err (s := latchAddress w s) h, Access.andThen_err]

/-- Everything effective-address resolution can answer: the latches take the address and AR the effective one, or the
pointer read of mode IND fails and AR is as it was. -/
theorem resolve_cases (c : Config) (mode : MemMode) (w : Word) (s : State) :
    (∃ ea, resolve c mode w s = .ok () ((latchAddress w s).setAr ea)) ∨
    ∃ k, mode = .ind ∧ resolve c mode w s = .err k (latchAddress w s) := by
  cases mode with
  | abs => exact .inl ⟨_, rfl⟩
  | absi => exact .inl ⟨_, rfl⟩
  | absj => exact .inl ⟨_, rfl⟩
  | ind =>
    rcases readWord_cases c w (latchAddress w s) with ⟨h, l, hh, hl, -⟩ | ⟨k, hk⟩
    · exact .inl ⟨_, resolve_ind_ok (s := s) hh hl⟩
    · exact .inr ⟨k, rfl, by rw [resolve, hk, Access.andThen_err]⟩

/-- Everything an 8-bit operand read can answer: only latches and AR have changed. -/
theorem operand8_cases (c : Config) (src : Src8) (s : State) :
    (∃ b, src = .imm b ∧ operand8 c src s = .ok b (s.setIml b)) ∨
    (∃ mode w ea b, src = .mem mode w ∧ busRead c s ea = .ok b ∧
      operand8 c src s = .ok b ((latchAddress w s).setAr ea)) ∨
    ∃ k w, operand8 c src s = .err k (latchAddress w s) ∨ ∃ ea, operand8 c src s = .err k ((latchAddress w s).setAr ea) := by
  cases src with
  | imm b => exact .inl ⟨b, rfl, rfl⟩
  | mem mode w =>
    rcases resolve_cases c mode w s with ⟨ea, h⟩ | ⟨k, -, h⟩
    · rcases readByte_cases c ea ((latchAddress w s).setAr ea) with ⟨b, hb, hr⟩ | ⟨k, -, hr⟩
      · exact .inr (.inl ⟨mode, w, ea, b, rfl, hb, by rw [operand8, h, Access.andThen_ok]; exact hr⟩)
      · exact .inr (.inr ⟨k, w, .inr ⟨ea, by rw [operand8, h, Access.andThen_ok]; exact hr⟩⟩)
    · exact .inr (.inr ⟨k, w, .inl (by rw [operand8, h, Access.andThen_err])⟩)

/-- Everything a 16-bit operand read can answer: only latches and AR have changed. -/
theorem operand16_cases (c : Config) (src : Src16) (s : State) :
    (∃ v, src = .imm v ∧ operand16 c src s = .ok v ((s.setImh (hiByte v)).setIml (loByte v))) ∨
    (∃ mode w ea h l, src = .mem mode w ∧ busRead c s ea = .ok h ∧ busRead c s (ea + 1#16) = .ok l ∧
      operand16 c src s = .ok (wordOf h l) ((latchAddress w s).setAr ea)) ∨
    ∃ k w, operand16 c src s = .err k (latchAddress w s) ∨
      ∃ ea, operand16 c src s = .err k ((latchAddress w s).setAr ea) := by
  cases src with
  | imm v => exact .inl ⟨v, rfl, rfl⟩
  | mem mode w =>
    rcases resolve_cases c mode w s with ⟨ea, h⟩ | ⟨k, -, h⟩
    · rcases readWord_cases c ea ((latchAddress w s).setAr ea) with ⟨b, b', hb, hb', hr⟩ | ⟨k, hr⟩
      · exact .inr (.inl ⟨mode, w, ea, b, b', rfl, hb, hb', by rw [operand16, h, Access.andThen_ok]; exact hr⟩)
      · exact .inr (.inr ⟨k, w, .inr ⟨ea, by rw [operand16, h, Access.andThen_ok]; exact hr⟩⟩)
    · exact .inr (.inr ⟨k, w, .inl (by rw [operand16, h, Access.andThen_err])⟩)

end Sys2Proof.Machine
end

