-- ==== Sys2Proof/Laws/Closure.lean ====
section
/-! SUPPORT. What a step can change, said once: every step is a chain of single updates, so a property that each update keeps
is kept by every instruction and every step. -/

namespace Sys2Proof.Machine

/-- The status bytes an instruction can write over `s.sr`: an operation's flags, one of C, O, D, and, in Supervisor mode
alone, any one flag or a whole byte with the reserved bit forced. -/
inductive StatusWrite (s : State) : Byte → Prop where
  | alu {w : Nat} (op : AluOp) (a b : BitVec w) : StatusWrite s (op.status a b s.sr)
  | flag (f : Flag) (v : Bool) (h : f = .c ∨ f = .o ∨ f = .d) : StatusWrite s (setFlag f v s.sr)
  | system (f : Flag) (v : Bool) (h : getFlag .s s.sr = true) : StatusWrite s (setFlag f v s.sr)
  | whole (v : Byte) (h : getFlag .s s.sr = true) : StatusWrite s (statusOf v)

/-- A property of states that every single update of a step keeps. -/
structure StepClosed (c : Config) (R : State → Prop) : Prop where
  pc : ∀ s v, R s → R (s.setPc v)
  sp : ∀ s v, R s → R (s.setSp v)
  a : ∀ s v, R s → R (s.setA v)
  b : ∀ s v, R s → R (s.setB v)
  i : ∀ s v, R s → R (s.setI v)
  j : ∀ s v, R s → R (s.setJ v)
  dr : ∀ s v, R s → R (s.setDr v)
  sr : ∀ s v, StatusWrite s v → R s → R (s.setSr v)
  ir : ∀ s v, R s → R (s.setIr v)
  emh : ∀ s v, R s → R (s.setEmh v)
  eml : ∀ s v, R s → R (s.setEml v)
  imh : ∀ s v, R s → R (s.setImh v)
  iml : ∀ s v, R s → R (s.setIml v)
  ar : ∀ s v, R s → R (s.setAr v)
  halt : ∀ s, getFlag .s s.sr = true → R s → R (s.setRun .halted)
  fault : ∀ s, R s → R (s.setRun .faulted)
  cur : ∀ s v, R s → R (s.setCur v)
  result : ∀ s v, R s → R (s.setResult v)
  write : ∀ s t a b, busWrite c s a b = .ok t → R s → R t

/-- The state a part of an instruction ends in, whether it succeeds or fails. -/
def Access.after {α : Type} : Access α → State
  | .ok _ s => s
  | .err _ s => s

theorem Access.after_andThen {α β : Type} {R : State → Prop} {p : Access α} {rest : α → State → Access β}
    (hp : R p.after) (hr : ∀ v s, R s → R (rest v s).after) : R (p.andThen rest).after := by
  cases p with
  | ok v s => exact hr v s hp
  | err k s => exact hp

/-- Every next state of an outcome has the property. -/
def Ends (R : State → Prop) (o : Outcome) : Prop := ∀ t, o = .next t → R t

theorem ends_next {R : State → Prop} {s : State} (h : R s) : Ends R (.next s) := by
  intro t ht; cases ht; exact h

/-- A register write leaves SR as it was. -/
@[simp] theorem State.writeReg16_sr (r : Reg16) (v : Word) (s : State) : (s.writeReg16 r v).sr = s.sr := by
  cases r <;> rfl

@[simp] theorem State.writeReg8_sr (r : Reg8) (v : Byte) (s : State) : (s.writeReg8 r v).sr = s.sr := by
  cases r <;> rfl

namespace StepClosed

variable {c : Config} {R : State → Prop}

theorem readByte (a : Word) {s : State} (hs : R s) : R (Machine.readByte c a s).after := by
  rcases readByte_cases c a s with ⟨b, -, h⟩ | ⟨k, -, h⟩ <;> rw [h] <;> exact hs

theorem readWord (a : Word) {s : State} (hs : R s) : R (Machine.readWord c a s).after := by
  rcases readWord_cases c a s with ⟨h, l, -, -, he⟩ | ⟨k, he⟩ <;> rw [he] <;> exact hs

theorem writeByte (hR : StepClosed c R) (a : Word) (b : Byte) {s : State} (hs : R s) :
    R (Machine.writeByte c a b s).after := by
  rcases writeByte_cases c a b s with ⟨t, ht, h⟩ | ⟨k, -, h⟩ <;> rw [h]
  · exact hR.write s t a b ht hs
  · exact hs

theorem writeWord (hR : StepClosed c R) (a v : Word) {s : State} (hs : R s) :
    R (Machine.writeWord c a v s).after :=
  Access.after_andThen (hR.writeByte a _ hs) fun _ _ h => hR.writeByte _ _ h

theorem push8 (hR : StepClosed c R) (b : Byte) {s : State} (hs : R s) : R (Machine.push8 c b s).after :=
  Access.after_andThen (hR.writeByte _ b hs) fun _ t h => hR.sp t _ h

theorem push16 (hR : StepClosed c R) (v : Word) {s : State} (hs : R s) : R (Machine.push16 c v s).after :=
  Access.after_andThen (hR.push8 _ hs) fun _ _ h => hR.push8 _ h

theorem pop8 (hR : StepClosed c R) {s : State} (hs : R s) : R (Machine.pop8 c s).after :=
  Access.after_andThen (readByte _ hs) fun _ t h => hR.sp t _ h

theorem pop16 (hR : StepClosed c R) {s : State} (hs : R s) : R (Machine.pop16 c s).after :=
  Access.after_andThen (readByte _ hs) fun _ _ h =>
    Access.after_andThen (readByte _ h) fun _ t h => hR.sp t _ h

theorem latchAddress (hR : StepClosed c R) (w : Word) {s : State} (hs : R s) : R (Machine.latchAddress w s) :=
  hR.eml _ _ (hR.emh _ _ hs)

theorem resolve (hR : StepClosed c R) (mode : MemMode) (w : Word) {s : State} (hs : R s) :
    R (Machine.resolve c mode w s).after := by
  rcases resolve_cases c mode w s with ⟨ea, h⟩ | ⟨k, -, h⟩ <;> rw [h]
  · exact hR.ar _ _ (hR.latchAddress w hs)
  · exact hR.latchAddress w hs

theorem operand8 (hR : StepClosed c R) (src : Src8) {s : State} (hs : R s) : R (Machine.operand8 c src s).after := by
  cases src with
  | imm b => exact hR.iml _ _ hs
  | mem mode w => exact Access.after_andThen (hR.resolve mode w hs) fun _ _ h => readByte _ h

theorem operand16 (hR : StepClosed c R) (src : Src16) {s : State} (hs : R s) :
    R (Machine.operand16 c src s).after := by
  cases src with
  | imm w => exact hR.iml _ _ (hR.imh _ _ hs)
  | mem mode w => exact Access.after_andThen (hR.resolve mode w hs) fun _ _ h => readWord _ h

theorem writeReg16 (hR : StepClosed c R) (r : Reg16) (v : Word) {s : State} (hs : R s) : R (s.writeReg16 r v) := by
  cases r
  · exact hR.a s v hs
  · exact hR.b s v hs
  · exact hR.i s v hs
  · exact hR.j s v hs
  · exact hR.dr s v hs
  · exact hR.sp s v hs

theorem writeReg8 (hR : StepClosed c R) (r : Reg8) (v : Byte) {s : State} (hs : R s) : R (s.writeReg8 r v) := by
  cases r
  · exact hR.a s _ hs
  · exact hR.a s _ hs
  · exact hR.b s _ hs
  · exact hR.b s _ hs

theorem finish (hR : StepClosed c R) (m : Mnemonic) {p : Access Unit} (hp : R p.after) : Ends R (Machine.finish m p) := by
  cases p <;> exact ends_next (hR.result _ _ hp)

theorem takeFault (hR : StepClosed c R) (k : ErrorKind) {s : State} (hs : R s) : Ends R (Machine.takeFault k s) :=
  ends_next (hR.result _ _ (hR.fault _ hs))

theorem privileged (hR : StepClosed c R) {body : State → Outcome} {s : State} (hs : R s)
    (hb : getFlag .s s.sr = true → Ends R (body s)) : Ends R (Machine.privileged s body) := by
  cases h : getFlag .s s.sr with
  | true => rw [privileged_supervisor h]; exact hb h
  | false => rw [privileged_user h]; exact hR.takeFault _ hs

/-! The meanings. -/

theorem load16 (hR : StepClosed c R) (m : Mnemonic) (r : Reg16) (src : Src16) {s : State} (hs : R s) :
    Ends R (Machine.load16 c m r src s) :=
  hR.finish m (Access.after_andThen (hR.operand16 src hs) fun v _ h => hR.writeReg16 r v h)

theorem load8 (hR : StepClosed c R) (m : Mnemonic) (r : Reg8) (src : Src8) {s : State} (hs : R s) :
    Ends R (Machine.load8 c m r src s) :=
  hR.finish m (Access.after_andThen (hR.operand8 src hs) fun v _ h => hR.writeReg8 r v h)

theorem store16 (hR : StepClosed c R) (m : Mnemonic) (r : Reg16) (mode : MemMode) (w : Word) {s : State} (hs : R s) :
    Ends R (Machine.store16 c m r mode w s) :=
  hR.finish m (Access.after_andThen (hR.resolve mode w hs) fun _ _ h => hR.writeWord _ _ h)

theorem store8 (hR : StepClosed c R) (m : Mnemonic) (r : Reg8) (mode : MemMode) (w : Word) {s : State} (hs : R s) :
    Ends R (Machine.store8 c m r mode w s) :=
  hR.finish m (Access.after_andThen (hR.resolve mode w hs) fun _ _ h => hR.writeByte _ _ h)

theorem transfer (hR : StepClosed c R) (m : Mnemonic) (x y : Reg16) {s : State} (hs : R s) :
    Ends R (Machine.transfer m x y s) := hR.finish m (hR.writeReg16 y _ hs)

theorem transferToSr (hR : StepClosed c R) (m : Mnemonic) {s : State} (hs : R s) (h : getFlag .s s.sr = true) :
    Ends R (Machine.transferToSr m s) := hR.finish m (hR.sr s _ (.whole _ h) hs)

theorem transferFromSr (hR : StepClosed c R) (m : Mnemonic) {s : State} (hs : R s) :
    Ends R (Machine.transferFromSr m s) := hR.finish m (hR.writeReg8 .al s.sr hs)

theorem alu16 (hR : StepClosed c R) (m : Mnemonic) (op : AluOp) (r : Reg16) (src : Src16) {s : State} (hs : R s) :
    Ends R (Machine.alu16 c m op r src s) := by
  refine hR.finish m (Access.after_andThen (hR.operand16 src hs) fun v u h => ?_)
  refine hR.sr _ _ ?_ (hR.writeReg16 r _ h)
  rw [← State.writeReg16_sr r (op.value (u.readReg16 r) v) u]
  exact .alu op _ _

theorem alu8 (hR : StepClosed c R) (m : Mnemonic) (op : AluOp) (r : Reg8) (src : Src8) {s : State} (hs : R s) :
    Ends R (Machine.alu8 c m op r src s) := by
  refine hR.finish m (Access.after_andThen (hR.operand8 src hs) fun v u h => ?_)
  refine hR.sr _ _ ?_ (hR.writeReg8 r _ h)
  rw [← State.writeReg8_sr r (op.value (u.readReg8 r) v) u]
  exact .alu op _ _

theorem indexStep (hR : StepClosed c R) (m : Mnemonic) (op : AluOp) (r : Reg16) {s : State} (hs : R s) :
    Ends R (Machine.indexStep m op r s) := by
  refine hR.finish m (hR.sr _ _ ?_ (hR.writeReg16 r _ hs))
  rw [← State.writeReg16_sr r (op.value (s.readReg16 r) 1#16) s]
  exact .alu op _ _

theorem push (hR : StepClosed c R) (m : Mnemonic) (r : Reg16) {s : State} (hs : R s) :
    Ends R (Machine.push c m r s) := hR.finish m (hR.push16 _ hs)

theorem pop (hR : StepClosed c R) (m : Mnemonic) (r : Reg16) {s : State} (hs : R s) :
    Ends R (Machine.pop c m r s) :=
  hR.finish m (Access.after_andThen (hR.pop16 hs) fun v _ h => hR.writeReg16 r v h)

theorem pushStatus (hR : StepClosed c R) (m : Mnemonic) {s : State} (hs : R s) :
    Ends R (Machine.pushStatus c m s) := hR.finish m (hR.push8 _ hs)

theorem popStatus (hR : StepClosed c R) (m : Mnemonic) {s : State} (hs : R s) (h : getFlag .s s.sr = true) :
    Ends R (Machine.popStatus c m s) := by
  refine hR.finish m ?_
  rcases readByte_cases c (s.sp - 1#16) s with ⟨b, hb, -⟩ | ⟨k, hk, -⟩
  · rw [pop8_ok hb, Access.andThen_ok]
    exact hR.sr _ _ (.whole b h) (hR.sp s _ hs)
  · rw [pop8_err hk, Access.andThen_err]; exact hs

theorem jump (hR : StepClosed c R) (m : Mnemonic) (cond : Cond) (mode : MemMode) (w : Word) {s : State} (hs : R s) :
    Ends R (Machine.jump c m cond mode w s) := by
  refine hR.finish m (Access.after_andThen (hR.resolve mode w hs) fun _ t h => ?_)
  show R (if cond.holds t.sr then t.setPc t.ar else t)
  split
  · exact hR.pc _ _ h
  · exact h

theorem callTo (hR : StepClosed c R) (m : Mnemonic) (mode : MemMode) (w : Word) {s : State} (hs : R s) :
    Ends R (Machine.callTo c m mode w s) :=
  hR.finish m (Access.after_andThen (hR.resolve mode w hs) fun _ _ h =>
    Access.after_andThen (hR.push16 _ h) fun _ _ h => hR.pc _ _ h)

theorem returnFrom (hR : StepClosed c R) (m : Mnemonic) {s : State} (hs : R s) :
    Ends R (Machine.returnFrom c m s) :=
  hR.finish m (Access.after_andThen (hR.pop16 hs) fun _ _ h => hR.pc _ _ h)

theorem writeFlag (hR : StepClosed c R) (m : Mnemonic) (f : Flag) (v : Bool) {s : State} (hs : R s)
    (h : f = .c ∨ f = .o ∨ f = .d ∨ getFlag .s s.sr = true) : Ends R (Machine.writeFlag m f v s) := by
  refine hR.finish m (hR.sr s _ ?_ hs)
  rcases h with h | h | h | h
  · exact .flag f v (.inl h)
  · exact .flag f v (.inr (.inl h))
  · exact .flag f v (.inr (.inr h))
  · exact .system f v h

theorem noOperation (hR : StepClosed c R) (m : Mnemonic) {s : State} (hs : R s) :
    Ends R (Machine.noOperation m s) := hR.finish m hs

theorem haltCore (hR : StepClosed c R) (m : Mnemonic) {s : State} (hs : R s) (h : getFlag .s s.sr = true) :
    Ends R (Machine.haltCore m s) := hR.finish m (hR.halt s h hs)

end StepClosed

/-- Every instruction keeps a property that each single update keeps. -/
theorem exec_closed {R : State → Prop} (hR : StepClosed Config.reference R) (i : Instr) {s : State} (hs : R s) :
    Ends R (exec i s) := by
  cases i with
  | nop => exact hR.noOperation _ hs
  | halt => exact hR.privileged hs fun h => hR.haltCore _ hs h
  | clc => exact hR.writeFlag _ _ _ hs (by simp)
  | sec => exact hR.writeFlag _ _ _ hs (by simp)
  | clo => exact hR.writeFlag _ _ _ hs (by simp)
  | cld => exact hR.writeFlag _ _ _ hs (by simp)
  | sed => exact hR.writeFlag _ _ _ hs (by simp)
  | cli => exact hR.privileged hs fun h => hR.writeFlag _ _ _ hs (.inr (.inr (.inr h)))
  | sei => exact hR.privileged hs fun h => hR.writeFlag _ _ _ hs (.inr (.inr (.inr h)))
  | cls => exact hR.privileged hs fun h => hR.writeFlag _ _ _ hs (.inr (.inr (.inr h)))
  | ldaImm2 imm => exact hR.load16 _ _ (.imm imm) hs
  | ldaAbs addr => exact hR.load16 _ _ (.mem .abs addr) hs
  | ldaAbsi base => exact hR.load16 _ _ (.mem .absi base) hs
  | ldaAbsj base => exact hR.load16 _ _ (.mem .absj base) hs
  | ldaInd ptr => exact hR.load16 _ _ (.mem .ind ptr) hs
  | ldahImm1 imm => exact hR.load8 _ _ (.imm imm) hs
  | ldahAbs addr => exact hR.load8 _ _ (.mem .abs addr) hs
  | ldalImm1 imm => exact hR.load8 _ _ (.imm imm) hs
  | ldalAbs addr => exact hR.load8 _ _ (.mem .abs addr) hs
  | ldalAbsi base => exact hR.load8 _ _ (.mem .absi base) hs
  | ldalAbsj base => exact hR.load8 _ _ (.mem .absj base) hs
  | ldalInd ptr => exact hR.load8 _ _ (.mem .ind ptr) hs
  | ldbImm2 imm => exact hR.load16 _ _ (.imm imm) hs
  | ldbAbs addr => exact hR.load16 _ _ (.mem .abs addr) hs
  | ldbhImm1 imm => exact hR.load8 _ _ (.imm imm) hs
  | ldbhAbs addr => exact hR.load8 _ _ (.mem .abs addr) hs
  | ldblImm1 imm => exact hR.load8 _ _ (.imm imm) hs
  | ldblAbs addr => exact hR.load8 _ _ (.mem .abs addr) hs
  | ldiImm2 imm => exact hR.load16 _ _ (.imm imm) hs
  | ldiAbs addr => exact hR.load16 _ _ (.mem .abs addr) hs
  | ldjImm2 imm => exact hR.load16 _ _ (.imm imm) hs
  | ldjAbs addr => exact hR.load16 _ _ (.mem .abs addr) hs
  | ldspImm2 imm => exact hR.load16 _ _ (.imm imm) hs
  | ldspAbs addr => exact hR.load16 _ _ (.mem .abs addr) hs
  | staAbs addr => exact hR.store16 _ _ .abs addr hs
  | staAbsi base => exact hR.store16 _ _ .absi base hs
  | staAbsj base => exact hR.store16 _ _ .absj base hs
  | staInd ptr => exact hR.store16 _ _ .ind ptr hs
  | stahAbs addr => exact hR.store8 _ _ .abs addr hs
  | stalAbs addr => exact hR.store8 _ _ .abs addr hs
  | stalAbsi base => exact hR.store8 _ _ .absi base hs
  | stalAbsj base => exact hR.store8 _ _ .absj base hs
  | stalInd ptr => exact hR.store8 _ _ .ind ptr hs
  | stbAbs addr => exact hR.store16 _ _ .abs addr hs
  | stbhAbs addr => exact hR.store8 _ _ .abs addr hs
  | stblAbs addr => exact hR.store8 _ _ .abs addr hs
  | stiAbs addr => exact hR.store16 _ _ .abs addr hs
  | stjAbs addr => exact hR.store16 _ _ .abs addr hs
  | tab => exact hR.transfer _ _ _ hs
  | tba => exact hR.transfer _ _ _ hs
  | tai => exact hR.transfer _ _ _ hs
  | tia => exact hR.transfer _ _ _ hs
  | taj => exact hR.transfer _ _ _ hs
  | tja => exact hR.transfer _ _ _ hs
  | tad => exact hR.transfer _ _ _ hs
  | tda => exact hR.transfer _ _ _ hs
  | tasp => exact hR.transfer _ _ _ hs
  | tspa => exact hR.transfer _ _ _ hs
  | tasr => exact hR.privileged hs fun h => hR.transferToSr _ hs h
  | tsra => exact hR.transferFromSr _ hs
  | addImm2 imm => exact hR.alu16 _ _ _ (.imm imm) hs
  | addAbs addr => exact hR.alu16 _ _ _ (.mem .abs addr) hs
  | subImm2 imm => exact hR.alu16 _ _ _ (.imm imm) hs
  | subAbs addr => exact hR.alu16 _ _ _ (.mem .abs addr) hs
  | andImm2 imm => exact hR.alu16 _ _ _ (.imm imm) hs
  | andAbs addr => exact hR.alu16 _ _ _ (.mem .abs addr) hs
  | orImm2 imm => exact hR.alu16 _ _ _ (.imm imm) hs
  | orAbs addr => exact hR.alu16 _ _ _ (.mem .abs addr) hs
  | addhImm1 imm => exact hR.alu8 _ _ _ (.imm imm) hs
  | addhAbs addr => exact hR.alu8 _ _ _ (.mem .abs addr) hs
  | addlImm1 imm => exact hR.alu8 _ _ _ (.imm imm) hs
  | addlAbs addr => exact hR.alu8 _ _ _ (.mem .abs addr) hs
  | subhImm1 imm => exact hR.alu8 _ _ _ (.imm imm) hs
  | subhAbs addr => exact hR.alu8 _ _ _ (.mem .abs addr) hs
  | sublImm1 imm => exact hR.alu8 _ _ _ (.imm imm) hs
  | sublAbs addr => exact hR.alu8 _ _ _ (.mem .abs addr) hs
  | andlImm1 imm => exact hR.alu8 _ _ _ (.imm imm) hs
  | andlAbs addr => exact hR.alu8 _ _ _ (.mem .abs addr) hs
  | orlImm1 imm => exact hR.alu8 _ _ _ (.imm imm) hs
  | orlAbs addr => exact hR.alu8 _ _ _ (.mem .abs addr) hs
  | addbImm2 imm => exact hR.alu16 _ _ _ (.imm imm) hs
  | addbAbs addr => exact hR.alu16 _ _ _ (.mem .abs addr) hs
  | subbImm2 imm => exact hR.alu16 _ _ _ (.imm imm) hs
  | subbAbs addr => exact hR.alu16 _ _ _ (.mem .abs addr) hs
  | andbImm2 imm => exact hR.alu16 _ _ _ (.imm imm) hs
  | andbAbs addr => exact hR.alu16 _ _ _ (.mem .abs addr) hs
  | orbImm2 imm => exact hR.alu16 _ _ _ (.imm imm) hs
  | orbAbs addr => exact hR.alu16 _ _ _ (.mem .abs addr) hs
  | addbhImm1 imm => exact hR.alu8 _ _ _ (.imm imm) hs
  | addbhAbs addr => exact hR.alu8 _ _ _ (.mem .abs addr) hs
  | addblImm1 imm => exact hR.alu8 _ _ _ (.imm imm) hs
  | addblAbs addr => exact hR.alu8 _ _ _ (.mem .abs addr) hs
  | subbhImm1 imm => exact hR.alu8 _ _ _ (.imm imm) hs
  | subbhAbs addr => exact hR.alu8 _ _ _ (.mem .abs addr) hs
  | subblImm1 imm => exact hR.alu8 _ _ _ (.imm imm) hs
  | subblAbs addr => exact hR.alu8 _ _ _ (.mem .abs addr) hs
  | andblImm1 imm => exact hR.alu8 _ _ _ (.imm imm) hs
  | andblAbs addr => exact hR.alu8 _ _ _ (.mem .abs addr) hs
  | orblImm1 imm => exact hR.alu8 _ _ _ (.imm imm) hs
  | orblAbs addr => exact hR.alu8 _ _ _ (.mem .abs addr) hs
  | ini => exact hR.indexStep _ _ _ hs
  | dei => exact hR.indexStep _ _ _ hs
  | inj => exact hR.indexStep _ _ _ hs
  | dej => exact hR.indexStep _ _ _ hs
  | psha => exact hR.push _ _ hs
  | popa => exact hR.pop _ _ hs
  | pshb => exact hR.push _ _ hs
  | popb => exact hR.pop _ _ hs
  | pshsr => exact hR.pushStatus _ hs
  | popsr => exact hR.privileged hs fun h => hR.popStatus _ hs h
  | jmpAbs addr => exact hR.jump _ _ .abs addr hs
  | jmpInd ptr => exact hR.jump _ _ .ind ptr hs
  | jeqAbs addr => exact hR.jump _ _ .abs addr hs
  | jneAbs addr => exact hR.jump _ _ .abs addr hs
  | jcsAbs addr => exact hR.jump _ _ .abs addr hs
  | jccAbs addr => exact hR.jump _ _ .abs addr hs
  | jnsAbs addr => exact hR.jump _ _ .abs addr hs
  | jncAbs addr => exact hR.jump _ _ .abs addr hs
  | josAbs addr => exact hR.jump _ _ .abs addr hs
  | jocAbs addr => exact hR.jump _ _ .abs addr hs
  | jltAbs addr => exact hR.jump _ _ .abs addr hs
  | jgeAbs addr => exact hR.jump _ _ .abs addr hs
  | callAbs addr => exact hR.callTo _ .abs addr hs
  | ret => exact hR.returnFrom _ hs

theorem fetchByte_cases (c : Config) (s : State) :
    (∃ b, busRead c s s.pc = .ok b ∧ fetchByte c s = .ok b (s.setPc (s.pc + 1#16))) ∨
    ∃ k, busRead c s s.pc = .error k ∧ fetchByte c s = .err k s := by
  rcases readByte_cases c s.pc s with ⟨b, hb, h⟩ | ⟨k, hk, h⟩
  · exact .inl ⟨b, hb, by rw [fetchByte, h, Access.andThen_ok]⟩
  · exact .inr ⟨k, hk, by rw [fetchByte, h, Access.andThen_err]⟩

theorem StepClosed.fetchByte {c : Config} {R : State → Prop} (hR : StepClosed c R) {s : State} (hs : R s) :
    R (Machine.fetchByte c s).after := Access.after_andThen (StepClosed.readByte _ hs) fun _ t h => hR.pc t _ h

theorem StepClosed.fetchOperand {c : Config} {R : State → Prop} (hR : StepClosed c R) (mode : AddrMode) {s : State}
    (hs : R s) : R (Machine.fetchOperand c mode s).after := by
  cases mode
  · exact hs
  · exact Access.after_andThen (hR.fetchByte hs) fun _ t h => hR.iml t _ h
  · exact Access.after_andThen (hR.fetchByte hs) fun _ t h =>
      Access.after_andThen (hR.fetchByte (hR.imh t _ h)) fun _ t h => hR.iml t _ h
  all_goals exact Access.after_andThen (hR.fetchByte hs) fun _ t h =>
      Access.after_andThen (hR.fetchByte (hR.emh t _ h)) fun _ t h => hR.eml t _ h

/-- Everything a cycle can do: nothing (stopped), a fault of the fetch, the lookup or the privilege check, or the operation
found, run in the state the fetch left. A property that each update and each operation keeps is kept. -/
theorem StepClosed.cycle {c : Config} {R : State → Prop} (hR : StepClosed c R)
    {find : Byte → Option (Descriptor × (Word → State → Outcome))}
    (hop : ∀ op d run, find op = some (d, run) → ∀ w s, R s → Ends R (run w s)) {s : State} (hs : R s) :
    Ends R (Machine.cycle c find s) := by
  unfold Machine.cycle
  cases s.run with
  | halted => exact ends_next (hR.result _ _ hs)
  | faulted => exact ends_next (hR.result _ _ hs)
  | running =>
    have hf := hR.fetchByte hs
    cases h : Machine.fetchByte c s with
    | err k t => rw [h] at hf; exact hR.takeFault k hf
    | ok op t =>
      rw [h] at hf
      replace hf : R t := hf
      show Ends R (match find op with
        | none => Machine.takeFault .unrecognizedOpcode (t.setIr op)
        | some (d, operation) => _)
      cases hd : find op with
      | none => exact hR.takeFault _ (hR.ir _ _ hf)
      | some p =>
        obtain ⟨d, run⟩ := p
        have h2 := hR.cur _ (some d.mnemonic) (hR.ir _ op hf)
        dsimp only
        split
        · exact hR.takeFault _ h2
        · have ho := hR.fetchOperand d.mode h2
          split
          · rename_i k u hu; rw [hu] at ho; exact hR.takeFault k ho
          · rename_i w u hu; rw [hu] at ho; exact hop op d run hd w u ho

/-- Every step keeps a property that each single update keeps. -/
theorem step_closed {R : State → Prop} (hR : StepClosed Config.reference R) {s : State} (hs : R s) :
    Ends R (step s) := by
  refine hR.cycle (fun op d run h w t ht => ?_) hs
  simp only [Option.map_eq_some_iff] at h
  obtain ⟨e, -, he⟩ := h
  cases he
  exact exec_closed hR _ ht

end Sys2Proof.Machine
end

