-- ==== Sys2Proof/Laws/Claims.lean ====
section
/-! SUPPORT. The laws of the shared operations in the words of Safety.lean: what operands leave, how an instruction ends, and
what a bus write to RAM leaves in memory. -/

namespace Sys2Proof.Machine

/-! Ends. -/

theorem finish_ok_endsOk (m : Mnemonic) (s : State) : finish m (.ok () s) = endsOk m s := rfl
theorem finish_err_endsError (m : Mnemonic) (k : ErrorKind) (s : State) : finish m (.err k s) = endsError m k s := rfl
theorem takeFault_endsFault (k : ErrorKind) (s : State) : takeFault k s = endsFault k s := rfl

/-! Effective addresses. -/

theorem resolve_abs_at (c : Config) (w : Word) (s : State) : resolve c .abs w s = .ok () (s.atAddress w w) := rfl

theorem resolve_absi_at (c : Config) (w : Word) (s : State) :
    resolve c .absi w s = .ok () (s.atAddress w (w + s.i)) := rfl

theorem resolve_absj_at (c : Config) (w : Word) (s : State) :
    resolve c .absj w s = .ok () (s.atAddress w (w + s.j)) := rfl

theorem resolve_ind_at {s : State} {w p : Word} (h : ReadsWord s w p) :
    resolve Config.reference .ind w s = .ok () (s.atAddress w p) := by
  have hr := resolve_ind_ok h.1 h.2
  rw [wordOf_hiByte_loByte] at hr
  exact hr

theorem resolve_ind_fails {s : State} {w : Word} {k : ErrorKind} (h : WordReadFails s w k) :
    resolve Config.reference .ind w s = .err k (s.withPointer w) := resolve_ind_err h

/-! Operands: immediates by `rfl`; a memory operand once the effective address is known. -/

theorem operand8_imm (c : Config) (b : Byte) (s : State) : operand8 c (.imm b) s = .ok b (s.withImm1 b) := rfl

theorem operand16_imm (c : Config) (w : Word) (s : State) : operand16 c (.imm w) s = .ok w (s.withImm2 w) := rfl

theorem operand8_at {mode : MemMode} {s : State} {w ea : Word} {b : Byte}
    (hr : resolve Config.reference mode w s = .ok () (s.atAddress w ea)) (h : ReadsByte s ea b) :
    operand8 Config.reference (.mem mode w) s = .ok b (s.atAddress w ea) := by
  rw [operand8, hr, Access.andThen_ok]
  exact readByte_ok (s := s.atAddress w ea) h

theorem operand16_at {mode : MemMode} {s : State} {w ea v : Word}
    (hr : resolve Config.reference mode w s = .ok () (s.atAddress w ea)) (h : ReadsWord s ea v) :
    operand16 Config.reference (.mem mode w) s = .ok v (s.atAddress w ea) := by
  rw [operand16, hr, Access.andThen_ok]
  have ho := readWord_ok (s := s.atAddress w ea) h.1 h.2
  rw [wordOf_hiByte_loByte] at ho
  exact ho

theorem operand8_fails {mode : MemMode} {s : State} {w ea : Word} {k : ErrorKind}
    (hr : resolve Config.reference mode w s = .ok () (s.atAddress w ea)) (h : ByteReadFails s ea k) :
    operand8 Config.reference (.mem mode w) s = .err k (s.atAddress w ea) := by
  rw [operand8, hr, Access.andThen_ok]
  exact readByte_err (s := s.atAddress w ea) h

theorem operand16_fails {mode : MemMode} {s : State} {w ea : Word} {k : ErrorKind}
    (hr : resolve Config.reference mode w s = .ok () (s.atAddress w ea)) (h : WordReadFails s ea k) :
    operand16 Config.reference (.mem mode w) s = .err k (s.atAddress w ea) := by
  rw [operand16, hr, Access.andThen_ok]
  exact readWord_err (s := s.atAddress w ea) h

theorem operand8_pointer_fails {s : State} {w : Word} {k : ErrorKind} (h : WordReadFails s w k) :
    operand8 Config.reference (.mem .ind w) s = .err k (s.withPointer w) := by
  rw [operand8, resolve_ind_fails h, Access.andThen_err]

theorem operand16_pointer_fails {s : State} {w : Word} {k : ErrorKind} (h : WordReadFails s w k) :
    operand16 Config.reference (.mem .ind w) s = .err k (s.withPointer w) := by
  rw [operand16, resolve_ind_fails h, Access.andThen_err]

/-! The meanings once the operand is known. -/

section meanings
variable {c : Config} {m : Mnemonic} {s t : State} {k : ErrorKind}

theorem load16_of_ok {r : Reg16} {src : Src16} {v : Word} (h : operand16 c src s = .ok v t) :
    load16 c m r src s = endsOk m (t.writeReg16 r v) := by rw [load16, h]; rfl

theorem load8_of_ok {r : Reg8} {src : Src8} {v : Byte} (h : operand8 c src s = .ok v t) :
    load8 c m r src s = endsOk m (t.writeReg8 r v) := by rw [load8, h]; rfl

theorem load16_of_err {r : Reg16} {src : Src16} (h : operand16 c src s = .err k t) :
    load16 c m r src s = endsError m k t := by rw [load16, h]; rfl

theorem load8_of_err {r : Reg8} {src : Src8} (h : operand8 c src s = .err k t) :
    load8 c m r src s = endsError m k t := by rw [load8, h]; rfl

theorem alu16_of_ok {op : AluOp} {r : Reg16} {src : Src16} {v : Word} (h : operand16 c src s = .ok v t) :
    alu16 c m op r src s =
      endsOk m ((t.writeReg16 r (op.value (t.readReg16 r) v)).setSr (op.status (t.readReg16 r) v t.sr)) := by
  rw [alu16, h]; rfl

theorem alu8_of_ok {op : AluOp} {r : Reg8} {src : Src8} {v : Byte} (h : operand8 c src s = .ok v t) :
    alu8 c m op r src s =
      endsOk m ((t.writeReg8 r (op.value (t.readReg8 r) v)).setSr (op.status (t.readReg8 r) v t.sr)) := by
  rw [alu8, h]; rfl

theorem alu16_of_err {op : AluOp} {r : Reg16} {src : Src16} (h : operand16 c src s = .err k t) :
    alu16 c m op r src s = endsError m k t := by rw [alu16, h]; rfl

theorem alu8_of_err {op : AluOp} {r : Reg8} {src : Src8} (h : operand8 c src s = .err k t) :
    alu8 c m op r src s = endsError m k t := by rw [alu8, h]; rfl

end meanings

/-! Memory after bus writes to RAM. -/

/-- A bus write to RAM stores one byte and changes nothing else. -/
theorem busWrite_ram_byteStored {s : State} {a : Word} (b : Byte) (hm : s.mem.wf = true) (ha : InRam a) :
    busWrite Config.reference s a b = .ok (s.setMem (s.mem.write a.toNat b)) ∧
      ByteStored s.mem (s.mem.write a.toNat b) a b := by
  refine ⟨busWrite_of_ram ha, Memory.wf_write hm _ _, ?_, fun x hx => ?_⟩
  · rw [Memory.read_write hm, if_pos rfl]
  · rw [Memory.read_write hm, if_neg hx]

/-- The next address is another one. -/
theorem toNat_add_one_ne (a : Word) : (a + 1#16).toNat ≠ a.toNat := by
  have := a.isLt
  rw [BitVec.toNat_add]
  simp only [BitVec.toNat_ofNat]
  omega

/-- Two byte writes at neighbouring addresses store a word. -/
theorem wordStored_write {m : Memory} (hm : m.wf = true) (a v : Word) :
    WordStored m ((m.write a.toNat (hiByte v)).write (a + 1#16).toNat (loByte v)) a v := by
  have h1 := Memory.wf_write hm a.toNat (hiByte v)
  refine ⟨Memory.wf_write h1 _ _, ?_, ?_, fun x hx hx' => ?_⟩
  · rw [Memory.read_write h1, if_neg (toNat_add_one_ne a).symm, Memory.read_write hm, if_pos rfl]
  · rw [Memory.read_write h1, if_pos rfl]
  · rw [Memory.read_write h1, if_neg hx', Memory.read_write hm, if_neg hx]

end Sys2Proof.Machine
end

