-- ==== Sys2Proof/Laws/Decode.lean ====
section
/-! SUPPORT. Laws of lookup and decoding: what `decode` answers once the row of the opcode is known. -/

namespace Sys2Proof

/-- The bytes of an operand in a mode: none, the low byte, or high byte and low byte (30_encoding.md R91). -/
def operandBytes (mode : AddrMode) (w : Word) : List Byte :=
  match mode with
  | .imp => []
  | .imm1 => [loByte w]
  | .imm2 | .abs | .absi | .absj | .ind => [hiByte w, loByte w]

/-- What the operand of a mode is once fetched: the bytes that the mode has, zero above them. -/
def operandWord (mode : AddrMode) (w : Word) : Word :=
  match mode with
  | .imp => 0x0000#16
  | .imm1 => wordOf 0x00#8 (loByte w)
  | .imm2 | .abs | .absi | .absj | .ind => w

@[simp] theorem operandBytes_length (mode : AddrMode) (w : Word) :
    (operandBytes mode w).length = mode.operandByteCount := by cases mode <;> rfl

/-- Taking as many operand bytes as a mode has from its operand bytes gives its operand. -/
theorem takeOperand_operandBytes (mode : AddrMode) (w : Word) (rest : List Byte) :
    takeOperand mode.operandByteCount (operandBytes mode w ++ rest) = some (operandWord mode w, rest) := by
  cases mode <;> simp [takeOperand, operandBytes, operandWord, AddrMode.operandByteCount]

/-- Decoding an opcode that has a row, followed by enough operand bytes. -/
theorem decode_of_row {op : Byte} {e : Entry} {bs rest : List Byte} {w : Word} (he : findEntry op = some e)
    (ho : takeOperand e.desc.operandByteCount bs = some (w, rest)) : decode (op :: bs) = .ok (e.build w, rest) := by
  simp only [decode, he, ho]

/-- Decoding an opcode without a row. -/
theorem decode_of_no_row {op : Byte} (bs : List Byte) (he : findEntry op = none) :
    decode (op :: bs) = .error (.unrecognizedOpcode op) := by
  simp only [decode, he]

/-- A row that lookup finds is a row of the table, under its own opcode. -/
theorem findEntry_mem {op : Byte} {e : Entry} (h : findEntry op = some e) : e ∈ refEntries ∧ e.opcode = op := by
  refine ⟨List.mem_of_find?_eq_some h, ?_⟩
  have := List.find?_some h
  simpa using this

/-- Lookup in the declared reference table is the descriptor of the row. -/
theorem refItab_lookup (op : Byte) : refItab.lookup op = (findEntry op).map Entry.desc := by
  simp only [Itab.lookup, refItab, findEntry, List.find?_map, Option.map_map]
  rfl

/-! Declared entries (R93). -/

@[simp] theorem DeclaredMode.tag_tagged (count : Nat) (mode : AddrMode) : (DeclaredMode.tagged mode).tag count = mode := rfl

@[simp] theorem Descriptor.declared_descriptor (d : Descriptor) : d.declared.descriptor = d := rfl

/-- Dropping the width of an immediate loses nothing where the count agrees with the mode. -/
theorem Descriptor.declaredUntagged_descriptor {d : Descriptor} (h : countAgrees d.mode d.operandByteCount = true) :
    d.declaredUntagged.descriptor = d := by
  obtain ⟨m, mode, n, p⟩ := d
  cases mode <;> simp [countAgrees] at h <;> subst h <;> rfl

/-- A declared entry meets the constraints exactly when the descriptor lookup answers for it does. -/
theorem Declaration.wellFormed_eq (d : Declaration) : d.wellFormed = d.descriptor.wellFormed := by
  obtain ⟨m, mode, n, p⟩ := d
  cases mode with
  | tagged mode => rfl
  | immediate =>
    show _ = (countAgrees (if n = 1 then .imm1 else .imm2) n && pairDefined m (if n = 1 then .imm1 else .imm2))
    by_cases h : n = 1
    · subst h; simp [Declaration.wellFormed, countAgrees]
    · simp [Declaration.wellFormed, countAgrees, h]

/-- Everything lookup can answer: the descriptor of an entry of the table under that opcode. -/
theorem Itab.lookup_mem {t : Itab} {op : Byte} {d : Descriptor} (h : t.lookup op = some d) :
    ∃ e, (op, e) ∈ t ∧ e.descriptor = d := by
  obtain ⟨⟨o, e⟩, hf, he⟩ := Option.map_eq_some_iff.1 h
  have ho : o = op := by simpa using List.find?_some hf
  exact ⟨e, ho ▸ List.mem_of_find?_eq_some hf, he⟩

end Sys2Proof
end

