-- ==== Sys2Proof/Laws/Host.lean ====
section
/-! SUPPORT. Laws of the host's commands (60_exceptions.md R341): the states and the records of a sequence of host
operations, and what one turn of a stepping loop does. -/

namespace Sys2Proof.Machine

@[simp] theorem stepsAlone_after (ts : List State) : (stepsAlone ts).filterMap HostOperation.after? = ts := by
  induction ts with
  | nil => rfl
  | cons t ts ih => exact congrArg (t :: ·) ih

@[simp] theorem stepsAlone_record (ts : List State) : (stepsAlone ts).filterMap HostOperation.record? = [] := by
  induction ts with
  | nil => rfl
  | cons t ts ih => exact ih

@[simp] theorem stepsWithStatus_after (ts : List State) : (stepsWithStatus ts).filterMap HostOperation.after? = ts := by
  induction ts with
  | nil => rfl
  | cons t ts ih => exact congrArg (t :: ·) ih

@[simp] theorem stepsWithStatus_record (ts : List State) :
    (stepsWithStatus ts).filterMap HostOperation.record? = ts.map cpuStatus := by
  induction ts with
  | nil => rfl
  | cons t ts ih => exact congrArg (cpuStatus t :: ·) ih

/-- One turn of a stepping loop whose step answers `t`: the loop ends on `t` or goes on from it. -/
theorem stepLoop_succ {stop : Mnemonic → Bool} {n : Nat} {s t : State} (h : step s = .next t) :
    stepLoop stop (n + 1) s = if loopEnds stop t.result then [t] else t :: stepLoop stop n t := by
  rw [stepLoop, h]

end Sys2Proof.Machine
end

