-- ==== Sys2Proof/Laws/PerInstr.lean ====
section
/-! SUPPORT. The per-instruction family `TableRow`: what the reference table says of each instruction as syntax. One lemma
per constructor of `Instr`. -/

namespace Sys2Proof.Laws.TableRow

/-- The row under the instruction's opcode carries its descriptor and builds it from its operand, and its bytes are that
opcode and the bytes of that operand. -/
def Statement (i : Instr) : Prop :=
  ∃ (e : Entry) (w : Word), findEntry e.opcode = some e ∧ e.desc = i.descriptor ∧
    e.build (operandWord i.mode w) = i ∧ encode i = e.opcode :: operandBytes i.mode w

theorem of_row {i : Instr} (e : Entry) (w : Word) (hf : findEntry e.opcode = some e) (hd : e.desc = i.descriptor)
    (hb : e.build (operandWord i.mode w) = i) (he : encode i = e.opcode :: operandBytes i.mode w) : Statement i :=
  ⟨e, w, hf, hd, hb, he⟩

theorem nop : Statement .nop :=
  of_row (userRow 0x01#8 .nop .imp fun _ => .nop) 0#16 rfl rfl rfl rfl
theorem halt : Statement .halt :=
  of_row (privilegedRow 0x02#8 .halt .imp fun _ => .halt) 0#16 rfl rfl rfl rfl
theorem clc : Statement .clc :=
  of_row (userRow 0x08#8 .clc .imp fun _ => .clc) 0#16 rfl rfl rfl rfl
theorem sec : Statement .sec :=
  of_row (userRow 0x09#8 .sec .imp fun _ => .sec) 0#16 rfl rfl rfl rfl
theorem clo : Statement .clo :=
  of_row (userRow 0x0A#8 .clo .imp fun _ => .clo) 0#16 rfl rfl rfl rfl
theorem cld : Statement .cld :=
  of_row (userRow 0x0B#8 .cld .imp fun _ => .cld) 0#16 rfl rfl rfl rfl
theorem sed : Statement .sed :=
  of_row (userRow 0x0C#8 .sed .imp fun _ => .sed) 0#16 rfl rfl rfl rfl
theorem cli : Statement .cli :=
  of_row (privilegedRow 0x0D#8 .cli .imp fun _ => .cli) 0#16 rfl rfl rfl rfl
theorem sei : Statement .sei :=
  of_row (privilegedRow 0x0E#8 .sei .imp fun _ => .sei) 0#16 rfl rfl rfl rfl
theorem cls : Statement .cls :=
  of_row (privilegedRow 0x0F#8 .cls .imp fun _ => .cls) 0#16 rfl rfl rfl rfl
theorem ldaImm2 (imm : Word) : Statement (.ldaImm2 imm) :=
  of_row (userRow 0x10#8 .lda .imm2 .ldaImm2) imm rfl rfl rfl rfl
theorem ldaAbs (addr : Word) : Statement (.ldaAbs addr) :=
  of_row (userRow 0x11#8 .lda .abs .ldaAbs) addr rfl rfl rfl rfl
theorem ldaAbsi (base : Word) : Statement (.ldaAbsi base) :=
  of_row (userRow 0x12#8 .lda .absi .ldaAbsi) base rfl rfl rfl rfl
theorem ldaAbsj (base : Word) : Statement (.ldaAbsj base) :=
  of_row (userRow 0x13#8 .lda .absj .ldaAbsj) base rfl rfl rfl rfl
theorem ldaInd (ptr : Word) : Statement (.ldaInd ptr) :=
  of_row (userRow 0x14#8 .lda .ind .ldaInd) ptr rfl rfl rfl rfl
theorem ldahImm1 (imm : Byte) : Statement (.ldahImm1 imm) :=
  of_row (userRow 0x15#8 .ldah .imm1 fun w => .ldahImm1 (loByte w)) (wordOf 0#8 imm) rfl rfl
    (by simp [operandWord, Instr.mode, userRow]) (by simp [operandBytes, Instr.mode, userRow, encode, formatF1])
theorem ldahAbs (addr : Word) : Statement (.ldahAbs addr) :=
  of_row (userRow 0x16#8 .ldah .abs .ldahAbs) addr rfl rfl rfl rfl
theorem ldalImm1 (imm : Byte) : Statement (.ldalImm1 imm) :=
  of_row (userRow 0x17#8 .ldal .imm1 fun w => .ldalImm1 (loByte w)) (wordOf 0#8 imm) rfl rfl
    (by simp [operandWord, Instr.mode, userRow]) (by simp [operandBytes, Instr.mode, userRow, encode, formatF1])
theorem ldalAbs (addr : Word) : Statement (.ldalAbs addr) :=
  of_row (userRow 0x18#8 .ldal .abs .ldalAbs) addr rfl rfl rfl rfl
theorem ldalAbsi (base : Word) : Statement (.ldalAbsi base) :=
  of_row (userRow 0x19#8 .ldal .absi .ldalAbsi) base rfl rfl rfl rfl
theorem ldalAbsj (base : Word) : Statement (.ldalAbsj base) :=
  of_row (userRow 0x1A#8 .ldal .absj .ldalAbsj) base rfl rfl rfl rfl
theorem ldalInd (ptr : Word) : Statement (.ldalInd ptr) :=
  of_row (userRow 0x1B#8 .ldal .ind .ldalInd) ptr rfl rfl rfl rfl
theorem ldbImm2 (imm : Word) : Statement (.ldbImm2 imm) :=
  of_row (userRow 0x1C#8 .ldb .imm2 .ldbImm2) imm rfl rfl rfl rfl
theorem ldbAbs (addr : Word) : Statement (.ldbAbs addr) :=
  of_row (userRow 0x1D#8 .ldb .abs .ldbAbs) addr rfl rfl rfl rfl
theorem ldbhImm1 (imm : Byte) : Statement (.ldbhImm1 imm) :=
  of_row (userRow 0x1E#8 .ldbh .imm1 fun w => .ldbhImm1 (loByte w)) (wordOf 0#8 imm) rfl rfl
    (by simp [operandWord, Instr.mode, userRow]) (by simp [operandBytes, Instr.mode, userRow, encode, formatF1])
theorem ldbhAbs (addr : Word) : Statement (.ldbhAbs addr) :=
  of_row (userRow 0x1F#8 .ldbh .abs .ldbhAbs) addr rfl rfl rfl rfl
theorem ldblImm1 (imm : Byte) : Statement (.ldblImm1 imm) :=
  of_row (userRow 0x20#8 .ldbl .imm1 fun w => .ldblImm1 (loByte w)) (wordOf 0#8 imm) rfl rfl
    (by simp [operandWord, Instr.mode, userRow]) (by simp [operandBytes, Instr.mode, userRow, encode, formatF1])
theorem ldblAbs (addr : Word) : Statement (.ldblAbs addr) :=
  of_row (userRow 0x21#8 .ldbl .abs .ldblAbs) addr rfl rfl rfl rfl
theorem ldiImm2 (imm : Word) : Statement (.ldiImm2 imm) :=
  of_row (userRow 0x22#8 .ldi .imm2 .ldiImm2) imm rfl rfl rfl rfl
theorem ldiAbs (addr : Word) : Statement (.ldiAbs addr) :=
  of_row (userRow 0x23#8 .ldi .abs .ldiAbs) addr rfl rfl rfl rfl
theorem ldjImm2 (imm : Word) : Statement (.ldjImm2 imm) :=
  of_row (userRow 0x24#8 .ldj .imm2 .ldjImm2) imm rfl rfl rfl rfl
theorem ldjAbs (addr : Word) : Statement (.ldjAbs addr) :=
  of_row (userRow 0x25#8 .ldj .abs .ldjAbs) addr rfl rfl rfl rfl
theorem ldspImm2 (imm : Word) : Statement (.ldspImm2 imm) :=
  of_row (userRow 0x26#8 .ldsp .imm2 .ldspImm2) imm rfl rfl rfl rfl
theorem ldspAbs (addr : Word) : Statement (.ldspAbs addr) :=
  of_row (userRow 0x27#8 .ldsp .abs .ldspAbs) addr rfl rfl rfl rfl
theorem staAbs (addr : Word) : Statement (.staAbs addr) :=
  of_row (userRow 0x30#8 .sta .abs .staAbs) addr rfl rfl rfl rfl
theorem staAbsi (base : Word) : Statement (.staAbsi base) :=
  of_row (userRow 0x31#8 .sta .absi .staAbsi) base rfl rfl rfl rfl
theorem staAbsj (base : Word) : Statement (.staAbsj base) :=
  of_row (userRow 0x32#8 .sta .absj .staAbsj) base rfl rfl rfl rfl
theorem staInd (ptr : Word) : Statement (.staInd ptr) :=
  of_row (userRow 0x33#8 .sta .ind .staInd) ptr rfl rfl rfl rfl
theorem stahAbs (addr : Word) : Statement (.stahAbs addr) :=
  of_row (userRow 0x34#8 .stah .abs .stahAbs) addr rfl rfl rfl rfl
theorem stalAbs (addr : Word) : Statement (.stalAbs addr) :=
  of_row (userRow 0x35#8 .stal .abs .stalAbs) addr rfl rfl rfl rfl
theorem stalAbsi (base : Word) : Statement (.stalAbsi base) :=
  of_row (userRow 0x36#8 .stal .absi .stalAbsi) base rfl rfl rfl rfl
theorem stalAbsj (base : Word) : Statement (.stalAbsj base) :=
  of_row (userRow 0x37#8 .stal .absj .stalAbsj) base rfl rfl rfl rfl
theorem stalInd (ptr : Word) : Statement (.stalInd ptr) :=
  of_row (userRow 0x38#8 .stal .ind .stalInd) ptr rfl rfl rfl rfl
theorem stbAbs (addr : Word) : Statement (.stbAbs addr) :=
  of_row (userRow 0x39#8 .stb .abs .stbAbs) addr rfl rfl rfl rfl
theorem stbhAbs (addr : Word) : Statement (.stbhAbs addr) :=
  of_row (userRow 0x3A#8 .stbh .abs .stbhAbs) addr rfl rfl rfl rfl
theorem stblAbs (addr : Word) : Statement (.stblAbs addr) :=
  of_row (userRow 0x3B#8 .stbl .abs .stblAbs) addr rfl rfl rfl rfl
theorem stiAbs (addr : Word) : Statement (.stiAbs addr) :=
  of_row (userRow 0x3C#8 .sti .abs .stiAbs) addr rfl rfl rfl rfl
theorem stjAbs (addr : Word) : Statement (.stjAbs addr) :=
  of_row (userRow 0x3D#8 .stj .abs .stjAbs) addr rfl rfl rfl rfl
theorem tab : Statement .tab :=
  of_row (userRow 0x40#8 .tab .imp fun _ => .tab) 0#16 rfl rfl rfl rfl
theorem tba : Statement .tba :=
  of_row (userRow 0x41#8 .tba .imp fun _ => .tba) 0#16 rfl rfl rfl rfl
theorem tai : Statement .tai :=
  of_row (userRow 0x42#8 .tai .imp fun _ => .tai) 0#16 rfl rfl rfl rfl
theorem tia : Statement .tia :=
  of_row (userRow 0x43#8 .tia .imp fun _ => .tia) 0#16 rfl rfl rfl rfl
theorem taj : Statement .taj :=
  of_row (userRow 0x44#8 .taj .imp fun _ => .taj) 0#16 rfl rfl rfl rfl
theorem tja : Statement .tja :=
  of_row (userRow 0x45#8 .tja .imp fun _ => .tja) 0#16 rfl rfl rfl rfl
theorem tad : Statement .tad :=
  of_row (userRow 0x46#8 .tad .imp fun _ => .tad) 0#16 rfl rfl rfl rfl
theorem tda : Statement .tda :=
  of_row (userRow 0x47#8 .tda .imp fun _ => .tda) 0#16 rfl rfl rfl rfl
theorem tasp : Statement .tasp :=
  of_row (userRow 0x48#8 .tasp .imp fun _ => .tasp) 0#16 rfl rfl rfl rfl
theorem tspa : Statement .tspa :=
  of_row (userRow 0x49#8 .tspa .imp fun _ => .tspa) 0#16 rfl rfl rfl rfl
theorem tasr : Statement .tasr :=
  of_row (privilegedRow 0x4A#8 .tasr .imp fun _ => .tasr) 0#16 rfl rfl rfl rfl
theorem tsra : Statement .tsra :=
  of_row (userRow 0x4B#8 .tsra .imp fun _ => .tsra) 0#16 rfl rfl rfl rfl
theorem addImm2 (imm : Word) : Statement (.addImm2 imm) :=
  of_row (userRow 0x50#8 .add .imm2 .addImm2) imm rfl rfl rfl rfl
theorem addAbs (addr : Word) : Statement (.addAbs addr) :=
  of_row (userRow 0x51#8 .add .abs .addAbs) addr rfl rfl rfl rfl
theorem subImm2 (imm : Word) : Statement (.subImm2 imm) :=
  of_row (userRow 0x52#8 .sub .imm2 .subImm2) imm rfl rfl rfl rfl
theorem subAbs (addr : Word) : Statement (.subAbs addr) :=
  of_row (userRow 0x53#8 .sub .abs .subAbs) addr rfl rfl rfl rfl
theorem andImm2 (imm : Word) : Statement (.andImm2 imm) :=
  of_row (userRow 0x54#8 .and .imm2 .andImm2) imm rfl rfl rfl rfl
theorem andAbs (addr : Word) : Statement (.andAbs addr) :=
  of_row (userRow 0x55#8 .and .abs .andAbs) addr rfl rfl rfl rfl
theorem orImm2 (imm : Word) : Statement (.orImm2 imm) :=
  of_row (userRow 0x56#8 .or .imm2 .orImm2) imm rfl rfl rfl rfl
theorem orAbs (addr : Word) : Statement (.orAbs addr) :=
  of_row (userRow 0x57#8 .or .abs .orAbs) addr rfl rfl rfl rfl
theorem addhImm1 (imm : Byte) : Statement (.addhImm1 imm) :=
  of_row (userRow 0x58#8 .addh .imm1 fun w => .addhImm1 (loByte w)) (wordOf 0#8 imm) rfl rfl
    (by simp [operandWord, Instr.mode, userRow]) (by simp [operandBytes, Instr.mode, userRow, encode, formatF1])
theorem addhAbs (addr : Word) : Statement (.addhAbs addr) :=
  of_row (userRow 0x59#8 .addh .abs .addhAbs) addr rfl rfl rfl rfl
theorem addlImm1 (imm : Byte) : Statement (.addlImm1 imm) :=
  of_row (userRow 0x5A#8 .addl .imm1 fun w => .addlImm1 (loByte w)) (wordOf 0#8 imm) rfl rfl
    (by simp [operandWord, Instr.mode, userRow]) (by simp [operandBytes, Instr.mode, userRow, encode, formatF1])
theorem addlAbs (addr : Word) : Statement (.addlAbs addr) :=
  of_row (userRow 0x5B#8 .addl .abs .addlAbs) addr rfl rfl rfl rfl
theorem subhImm1 (imm : Byte) : Statement (.subhImm1 imm) :=
  of_row (userRow 0x5C#8 .subh .imm1 fun w => .subhImm1 (loByte w)) (wordOf 0#8 imm) rfl rfl
    (by simp [operandWord, Instr.mode, userRow]) (by simp [operandBytes, Instr.mode, userRow, encode, formatF1])
theorem subhAbs (addr : Word) : Statement (.subhAbs addr) :=
  of_row (userRow 0x5D#8 .subh .abs .subhAbs) addr rfl rfl rfl rfl
theorem sublImm1 (imm : Byte) : Statement (.sublImm1 imm) :=
  of_row (userRow 0x5E#8 .subl .imm1 fun w => .sublImm1 (loByte w)) (wordOf 0#8 imm) rfl rfl
    (by simp [operandWord, Instr.mode, userRow]) (by simp [operandBytes, Instr.mode, userRow, encode, formatF1])
theorem sublAbs (addr : Word) : Statement (.sublAbs addr) :=
  of_row (userRow 0x5F#8 .subl .abs .sublAbs) addr rfl rfl rfl rfl
theorem andlImm1 (imm : Byte) : Statement (.andlImm1 imm) :=
  of_row (userRow 0x60#8 .andl .imm1 fun w => .andlImm1 (loByte w)) (wordOf 0#8 imm) rfl rfl
    (by simp [operandWord, Instr.mode, userRow]) (by simp [operandBytes, Instr.mode, userRow, encode, formatF1])
theorem andlAbs (addr : Word) : Statement (.andlAbs addr) :=
  of_row (userRow 0x61#8 .andl .abs .andlAbs) addr rfl rfl rfl rfl
theorem orlImm1 (imm : Byte) : Statement (.orlImm1 imm) :=
  of_row (userRow 0x62#8 .orl .imm1 fun w => .orlImm1 (loByte w)) (wordOf 0#8 imm) rfl rfl
    (by simp [operandWord, Instr.mode, userRow]) (by simp [operandBytes, Instr.mode, userRow, encode, formatF1])
theorem orlAbs (addr : Word) : Statement (.orlAbs addr) :=
  of_row (userRow 0x63#8 .orl .abs .orlAbs) addr rfl rfl rfl rfl
theorem addbImm2 (imm : Word) : Statement (.addbImm2 imm) :=
  of_row (userRow 0x70#8 .addb .imm2 .addbImm2) imm rfl rfl rfl rfl
theorem addbAbs (addr : Word) : Statement (.addbAbs addr) :=
  of_row (userRow 0x71#8 .addb .abs .addbAbs) addr rfl rfl rfl rfl
theorem subbImm2 (imm : Word) : Statement (.subbImm2 imm) :=
  of_row (userRow 0x72#8 .subb .imm2 .subbImm2) imm rfl rfl rfl rfl
theorem subbAbs (addr : Word) : Statement (.subbAbs addr) :=
  of_row (userRow 0x73#8 .subb .abs .subbAbs) addr rfl rfl rfl rfl
theorem andbImm2 (imm : Word) : Statement (.andbImm2 imm) :=
  of_row (userRow 0x74#8 .andb .imm2 .andbImm2) imm rfl rfl rfl rfl
theorem andbAbs (addr : Word) : Statement (.andbAbs addr) :=
  of_row (userRow 0x75#8 .andb .abs .andbAbs) addr rfl rfl rfl rfl
theorem orbImm2 (imm : Word) : Statement (.orbImm2 imm) :=
  of_row (userRow 0x76#8 .orb .imm2 .orbImm2) imm rfl rfl rfl rfl
theorem orbAbs (addr : Word) : Statement (.orbAbs addr) :=
  of_row (userRow 0x77#8 .orb .abs .orbAbs) addr rfl rfl rfl rfl
theorem addbhImm1 (imm : Byte) : Statement (.addbhImm1 imm) :=
  of_row (userRow 0x78#8 .addbh .imm1 fun w => .addbhImm1 (loByte w)) (wordOf 0#8 imm) rfl rfl
    (by simp [operandWord, Instr.mode, userRow]) (by simp [operandBytes, Instr.mode, userRow, encode, formatF1])
theorem addbhAbs (addr : Word) : Statement (.addbhAbs addr) :=
  of_row (userRow 0x79#8 .addbh .abs .addbhAbs) addr rfl rfl rfl rfl
theorem addblImm1 (imm : Byte) : Statement (.addblImm1 imm) :=
  of_row (userRow 0x7A#8 .addbl .imm1 fun w => .addblImm1 (loByte w)) (wordOf 0#8 imm) rfl rfl
    (by simp [operandWord, Instr.mode, userRow]) (by simp [operandBytes, Instr.mode, userRow, encode, formatF1])
theorem addblAbs (addr : Word) : Statement (.addblAbs addr) :=
  of_row (userRow 0x7B#8 .addbl .abs .addblAbs) addr rfl rfl rfl rfl
theorem subbhImm1 (imm : Byte) : Statement (.subbhImm1 imm) :=
  of_row (userRow 0x7C#8 .subbh .imm1 fun w => .subbhImm1 (loByte w)) (wordOf 0#8 imm) rfl rfl
    (by simp [operandWord, Instr.mode, userRow]) (by simp [operandBytes, Instr.mode, userRow, encode, formatF1])
theorem subbhAbs (addr : Word) : Statement (.subbhAbs addr) :=
  of_row (userRow 0x7D#8 .subbh .abs .subbhAbs) addr rfl rfl rfl rfl
theorem subblImm1 (imm : Byte) : Statement (.subblImm1 imm) :=
  of_row (userRow 0x7E#8 .subbl .imm1 fun w => .subblImm1 (loByte w)) (wordOf 0#8 imm) rfl rfl
    (by simp [operandWord, Instr.mode, userRow]) (by simp [operandBytes, Instr.mode, userRow, encode, formatF1])
theorem subblAbs (addr : Word) : Statement (.subblAbs addr) :=
  of_row (userRow 0x7F#8 .subbl .abs .subblAbs) addr rfl rfl rfl rfl
theorem andblImm1 (imm : Byte) : Statement (.andblImm1 imm) :=
  of_row (userRow 0x80#8 .andbl .imm1 fun w => .andblImm1 (loByte w)) (wordOf 0#8 imm) rfl rfl
    (by simp [operandWord, Instr.mode, userRow]) (by simp [operandBytes, Instr.mode, userRow, encode, formatF1])
theorem andblAbs (addr : Word) : Statement (.andblAbs addr) :=
  of_row (userRow 0x81#8 .andbl .abs .andblAbs) addr rfl rfl rfl rfl
theorem orblImm1 (imm : Byte) : Statement (.orblImm1 imm) :=
  of_row (userRow 0x82#8 .orbl .imm1 fun w => .orblImm1 (loByte w)) (wordOf 0#8 imm) rfl rfl
    (by simp [operandWord, Instr.mode, userRow]) (by simp [operandBytes, Instr.mode, userRow, encode, formatF1])
theorem orblAbs (addr : Word) : Statement (.orblAbs addr) :=
  of_row (userRow 0x83#8 .orbl .abs .orblAbs) addr rfl rfl rfl rfl
theorem ini : Statement .ini :=
  of_row (userRow 0x90#8 .ini .imp fun _ => .ini) 0#16 rfl rfl rfl rfl
theorem dei : Statement .dei :=
  of_row (userRow 0x91#8 .dei .imp fun _ => .dei) 0#16 rfl rfl rfl rfl
theorem inj : Statement .inj :=
  of_row (userRow 0x92#8 .inj .imp fun _ => .inj) 0#16 rfl rfl rfl rfl
theorem dej : Statement .dej :=
  of_row (userRow 0x93#8 .dej .imp fun _ => .dej) 0#16 rfl rfl rfl rfl
theorem psha : Statement .psha :=
  of_row (userRow 0xA0#8 .psha .imp fun _ => .psha) 0#16 rfl rfl rfl rfl
theorem popa : Statement .popa :=
  of_row (userRow 0xA1#8 .popa .imp fun _ => .popa) 0#16 rfl rfl rfl rfl
theorem pshb : Statement .pshb :=
  of_row (userRow 0xA2#8 .pshb .imp fun _ => .pshb) 0#16 rfl rfl rfl rfl
theorem popb : Statement .popb :=
  of_row (userRow 0xA3#8 .popb .imp fun _ => .popb) 0#16 rfl rfl rfl rfl
theorem pshsr : Statement .pshsr :=
  of_row (userRow 0xA4#8 .pshsr .imp fun _ => .pshsr) 0#16 rfl rfl rfl rfl
theorem popsr : Statement .popsr :=
  of_row (privilegedRow 0xA5#8 .popsr .imp fun _ => .popsr) 0#16 rfl rfl rfl rfl
theorem jmpAbs (addr : Word) : Statement (.jmpAbs addr) :=
  of_row (userRow 0xB0#8 .jmp .abs .jmpAbs) addr rfl rfl rfl rfl
theorem jmpInd (ptr : Word) : Statement (.jmpInd ptr) :=
  of_row (userRow 0xB1#8 .jmp .ind .jmpInd) ptr rfl rfl rfl rfl
theorem jeqAbs (addr : Word) : Statement (.jeqAbs addr) :=
  of_row (userRow 0xB2#8 .jeq .abs .jeqAbs) addr rfl rfl rfl rfl
theorem jneAbs (addr : Word) : Statement (.jneAbs addr) :=
  of_row (userRow 0xB3#8 .jne .abs .jneAbs) addr rfl rfl rfl rfl
theorem jcsAbs (addr : Word) : Statement (.jcsAbs addr) :=
  of_row (userRow 0xB4#8 .jcs .abs .jcsAbs) addr rfl rfl rfl rfl
theorem jccAbs (addr : Word) : Statement (.jccAbs addr) :=
  of_row (userRow 0xB5#8 .jcc .abs .jccAbs) addr rfl rfl rfl rfl
theorem jnsAbs (addr : Word) : Statement (.jnsAbs addr) :=
  of_row (userRow 0xB6#8 .jns .abs .jnsAbs) addr rfl rfl rfl rfl
theorem jncAbs (addr : Word) : Statement (.jncAbs addr) :=
  of_row (userRow 0xB7#8 .jnc .abs .jncAbs) addr rfl rfl rfl rfl
theorem josAbs (addr : Word) : Statement (.josAbs addr) :=
  of_row (userRow 0xB8#8 .jos .abs .josAbs) addr rfl rfl rfl rfl
theorem jocAbs (addr : Word) : Statement (.jocAbs addr) :=
  of_row (userRow 0xB9#8 .joc .abs .jocAbs) addr rfl rfl rfl rfl
theorem jltAbs (addr : Word) : Statement (.jltAbs addr) :=
  of_row (userRow 0xBA#8 .jlt .abs .jltAbs) addr rfl rfl rfl rfl
theorem jgeAbs (addr : Word) : Statement (.jgeAbs addr) :=
  of_row (userRow 0xBB#8 .jge .abs .jgeAbs) addr rfl rfl rfl rfl
theorem callAbs (addr : Word) : Statement (.callAbs addr) :=
  of_row (userRow 0xBC#8 .call .abs .callAbs) addr rfl rfl rfl rfl
theorem ret : Statement .ret :=
  of_row (userRow 0xBD#8 .ret .imp fun _ => .ret) 0#16 rfl rfl rfl rfl

end Sys2Proof.Laws.TableRow
end

