-- ==== Sys2Proof/Tests/Slice0.lean ====
section
/-! SUPPORT. Tests of the model, each a named theorem: ill-formed terms that the checks refuse, one word of each row
written out from the spec's encoding tables, the table interface, single steps from the vectors of 95_test_vectors.md (the
number V<n> in the name), and for every statement with hypotheses a state and operands that meet them. -/

namespace Sys2Proof.Tests

/- One test at a time: run side by side, their threads ask for more memory than the sandbox gives. -/
set_option Elab.async false

open Sys2Proof Sys2Proof.Machine

/-! The checks refuse ill-formed terms. -/

theorem test_pair_implied_refused : pairDefined .nop .abs = false := by decide
theorem test_pair_wide_refused : pairDefined .lda .imm1 = false ∧ pairDefined .ini .imm2 = false := by decide
theorem test_pair_narrow_refused : pairDefined .ldah .imm2 = false := by decide
theorem test_pair_store_refused : pairDefined .sta .imm2 = false ∧ pairDefined .sta .imp = false := by decide
theorem test_pair_jump_refused : pairDefined .jmp .imp = false ∧ pairDefined .call .imm2 = false := by decide
theorem test_count_refused : countAgrees .abs 1 = false ∧ countAgrees .imp 1 = false ∧ countAgrees .imm1 2 = false := by
  decide
theorem test_descriptor_refused :
    Descriptor.wellFormed ⟨.lda, .imm2, 1, false⟩ = false ∧ Descriptor.wellFormed ⟨.sta, .imm2, 2, false⟩ = false := by
  decide
theorem test_table_duplicate_refused :
    Itab.wellFormed [(0x01#8, ⟨.nop, .tagged .imp, 0, false⟩), (0x01#8, ⟨.ret, .tagged .imp, 0, false⟩)] = false := by
  decide
theorem test_declared_immediate_refused :
    Declaration.wellFormed ⟨.lda, .immediate, 0, false⟩ = false ∧ Declaration.wellFormed ⟨.lda, .immediate, 1, false⟩ = false ∧
    Declaration.wellFormed ⟨.ldah, .immediate, 2, false⟩ = false ∧ Declaration.wellFormed ⟨.sta, .immediate, 2, false⟩ = false ∧
    Declaration.wellFormed ⟨.lda, .immediate, 2, false⟩ = true ∧ Declaration.wellFormed ⟨.ldah, .immediate, 1, false⟩ = true := by
  decide
/-- R93: "immediate" with one declared byte is `IMM1`, with two `IMM2`. -/
theorem test_untagged_immediate_is_rewritten :
    Itab.lookup [(0x15#8, ⟨.ldah, .immediate, 1, false⟩)] 0x15#8 = some ⟨.ldah, .imm1, 1, false⟩ ∧
    Itab.lookup [(0x10#8, ⟨.lda, .immediate, 2, false⟩)] 0x10#8 = some ⟨.lda, .imm2, 2, false⟩ := by decide
theorem test_config_reference : Config.reference.wellFormed = true := by decide
theorem test_config_bounds_refused :
    Config.wellFormed { Config.reference with romLo := 0xFFFF, romHi := 0xF000 } = false ∧
    Config.wellFormed { Config.reference with romHi := 0x10000 } = false ∧
    Config.wellFormed { Config.reference with videoBase := 0xFFF8 } = false := by decide
theorem test_config_overlap_refused :
    Config.wellFormed { Config.reference with charHi := 0xF000 } = false ∧
    Config.wellFormed { Config.reference with cartHi := 0xE000 } = false ∧
    Config.wellFormed { Config.reference with videoBase := 0xE7F8 } = false := by decide
theorem test_config_raster_refused :
    Config.wellFormed { Config.reference with rasterW := 0 } = false ∧
    Config.wellFormed { Config.reference with rasterH := 257 } = false := by decide
theorem test_memory_form_refused :
    Memory.wf [(2, 1#8), (1, 1#8)] = false ∧ Memory.wf [(1, 1#8), (1, 2#8)] = false ∧ Memory.wf [(1, 0#8)] = false := by
  decide
/-- A table with a pair that has no operation is refused before any step (R125). -/
theorem test_machine_refused :
    (match machineFor Config.reference [(0x01#8, ⟨.sta, .tagged .imm2, 2, false⟩)] with
      | .error .badTable => true
      | _ => false) = true := by decide +kernel

/-! Every row's word, written out from 30_encoding.md: the opcode, then the operand bytes, the high one first. -/

/-- Each byte string decodes to its instruction, with nothing left over. -/
def decodesAll (words : List (List Byte × Instr)) : Bool :=
  words.all fun p =>
    match decode p.1 with
    | .ok (i, []) => i == p.2
    | _ => false

theorem test_decode_wordsSystem :
    decodesAll [([0x01#8], .nop), ([0x02#8], .halt), ([0x08#8], .clc), ([0x09#8], .sec), ([0x0A#8], .clo),
      ([0x0B#8], .cld), ([0x0C#8], .sed), ([0x0D#8], .cli), ([0x0E#8], .sei),
      ([0x0F#8], .cls)] = true := by decide +kernel

theorem test_decode_wordsLoad :
    decodesAll [([0x10#8, 0x81#8, 0x42#8], .ldaImm2 0x8142#16), ([0x11#8, 0x81#8, 0x42#8], .ldaAbs 0x8142#16),
      ([0x12#8, 0x81#8, 0x42#8], .ldaAbsi 0x8142#16), ([0x13#8, 0x81#8, 0x42#8], .ldaAbsj 0x8142#16),
      ([0x14#8, 0x81#8, 0x42#8], .ldaInd 0x8142#16), ([0x15#8, 0xA5#8], .ldahImm1 0xA5#8),
      ([0x16#8, 0x81#8, 0x42#8], .ldahAbs 0x8142#16), ([0x17#8, 0xA5#8], .ldalImm1 0xA5#8),
      ([0x18#8, 0x81#8, 0x42#8], .ldalAbs 0x8142#16), ([0x19#8, 0x81#8, 0x42#8], .ldalAbsi 0x8142#16),
      ([0x1A#8, 0x81#8, 0x42#8], .ldalAbsj 0x8142#16), ([0x1B#8, 0x81#8, 0x42#8], .ldalInd 0x8142#16),
      ([0x1C#8, 0x81#8, 0x42#8], .ldbImm2 0x8142#16), ([0x1D#8, 0x81#8, 0x42#8], .ldbAbs 0x8142#16),
      ([0x1E#8, 0xA5#8], .ldbhImm1 0xA5#8), ([0x1F#8, 0x81#8, 0x42#8], .ldbhAbs 0x8142#16),
      ([0x20#8, 0xA5#8], .ldblImm1 0xA5#8), ([0x21#8, 0x81#8, 0x42#8], .ldblAbs 0x8142#16),
      ([0x22#8, 0x81#8, 0x42#8], .ldiImm2 0x8142#16), ([0x23#8, 0x81#8, 0x42#8], .ldiAbs 0x8142#16),
      ([0x24#8, 0x81#8, 0x42#8], .ldjImm2 0x8142#16), ([0x25#8, 0x81#8, 0x42#8], .ldjAbs 0x8142#16),
      ([0x26#8, 0x81#8, 0x42#8], .ldspImm2 0x8142#16),
      ([0x27#8, 0x81#8, 0x42#8], .ldspAbs 0x8142#16)] = true := by decide +kernel

theorem test_decode_wordsStore :
    decodesAll [([0x30#8, 0x81#8, 0x42#8], .staAbs 0x8142#16), ([0x31#8, 0x81#8, 0x42#8], .staAbsi 0x8142#16),
      ([0x32#8, 0x81#8, 0x42#8], .staAbsj 0x8142#16), ([0x33#8, 0x81#8, 0x42#8], .staInd 0x8142#16),
      ([0x34#8, 0x81#8, 0x42#8], .stahAbs 0x8142#16), ([0x35#8, 0x81#8, 0x42#8], .stalAbs 0x8142#16),
      ([0x36#8, 0x81#8, 0x42#8], .stalAbsi 0x8142#16), ([0x37#8, 0x81#8, 0x42#8], .stalAbsj 0x8142#16),
      ([0x38#8, 0x81#8, 0x42#8], .stalInd 0x8142#16), ([0x39#8, 0x81#8, 0x42#8], .stbAbs 0x8142#16),
      ([0x3A#8, 0x81#8, 0x42#8], .stbhAbs 0x8142#16), ([0x3B#8, 0x81#8, 0x42#8], .stblAbs 0x8142#16),
      ([0x3C#8, 0x81#8, 0x42#8], .stiAbs 0x8142#16),
      ([0x3D#8, 0x81#8, 0x42#8], .stjAbs 0x8142#16)] = true := by decide +kernel

theorem test_decode_wordsTransfer :
    decodesAll [([0x40#8], .tab), ([0x41#8], .tba), ([0x42#8], .tai), ([0x43#8], .tia), ([0x44#8], .taj),
      ([0x45#8], .tja), ([0x46#8], .tad), ([0x47#8], .tda), ([0x48#8], .tasp), ([0x49#8], .tspa),
      ([0x4A#8], .tasr), ([0x4B#8], .tsra)] = true := by decide +kernel

theorem test_decode_wordsAluA :
    decodesAll [([0x50#8, 0x81#8, 0x42#8], .addImm2 0x8142#16), ([0x51#8, 0x81#8, 0x42#8], .addAbs 0x8142#16),
      ([0x52#8, 0x81#8, 0x42#8], .subImm2 0x8142#16), ([0x53#8, 0x81#8, 0x42#8], .subAbs 0x8142#16),
      ([0x54#8, 0x81#8, 0x42#8], .andImm2 0x8142#16), ([0x55#8, 0x81#8, 0x42#8], .andAbs 0x8142#16),
      ([0x56#8, 0x81#8, 0x42#8], .orImm2 0x8142#16), ([0x57#8, 0x81#8, 0x42#8], .orAbs 0x8142#16),
      ([0x58#8, 0xA5#8], .addhImm1 0xA5#8), ([0x59#8, 0x81#8, 0x42#8], .addhAbs 0x8142#16),
      ([0x5A#8, 0xA5#8], .addlImm1 0xA5#8), ([0x5B#8, 0x81#8, 0x42#8], .addlAbs 0x8142#16),
      ([0x5C#8, 0xA5#8], .subhImm1 0xA5#8), ([0x5D#8, 0x81#8, 0x42#8], .subhAbs 0x8142#16),
      ([0x5E#8, 0xA5#8], .sublImm1 0xA5#8), ([0x5F#8, 0x81#8, 0x42#8], .sublAbs 0x8142#16),
      ([0x60#8, 0xA5#8], .andlImm1 0xA5#8), ([0x61#8, 0x81#8, 0x42#8], .andlAbs 0x8142#16),
      ([0x62#8, 0xA5#8], .orlImm1 0xA5#8),
      ([0x63#8, 0x81#8, 0x42#8], .orlAbs 0x8142#16)] = true := by decide +kernel

theorem test_decode_wordsAluB :
    decodesAll [([0x70#8, 0x81#8, 0x42#8], .addbImm2 0x8142#16), ([0x71#8, 0x81#8, 0x42#8], .addbAbs 0x8142#16),
      ([0x72#8, 0x81#8, 0x42#8], .subbImm2 0x8142#16), ([0x73#8, 0x81#8, 0x42#8], .subbAbs 0x8142#16),
      ([0x74#8, 0x81#8, 0x42#8], .andbImm2 0x8142#16), ([0x75#8, 0x81#8, 0x42#8], .andbAbs 0x8142#16),
      ([0x76#8, 0x81#8, 0x42#8], .orbImm2 0x8142#16), ([0x77#8, 0x81#8, 0x42#8], .orbAbs 0x8142#16),
      ([0x78#8, 0xA5#8], .addbhImm1 0xA5#8), ([0x79#8, 0x81#8, 0x42#8], .addbhAbs 0x8142#16),
      ([0x7A#8, 0xA5#8], .addblImm1 0xA5#8), ([0x7B#8, 0x81#8, 0x42#8], .addblAbs 0x8142#16),
      ([0x7C#8, 0xA5#8], .subbhImm1 0xA5#8), ([0x7D#8, 0x81#8, 0x42#8], .subbhAbs 0x8142#16),
      ([0x7E#8, 0xA5#8], .subblImm1 0xA5#8), ([0x7F#8, 0x81#8, 0x42#8], .subblAbs 0x8142#16),
      ([0x80#8, 0xA5#8], .andblImm1 0xA5#8), ([0x81#8, 0x81#8, 0x42#8], .andblAbs 0x8142#16),
      ([0x82#8, 0xA5#8], .orblImm1 0xA5#8),
      ([0x83#8, 0x81#8, 0x42#8], .orblAbs 0x8142#16)] = true := by decide +kernel

theorem test_decode_wordsIndex :
    decodesAll [([0x90#8], .ini), ([0x91#8], .dei), ([0x92#8], .inj),
      ([0x93#8], .dej)] = true := by decide +kernel

theorem test_decode_wordsStack :
    decodesAll [([0xA0#8], .psha), ([0xA1#8], .popa), ([0xA2#8], .pshb), ([0xA3#8], .popb), ([0xA4#8], .pshsr),
      ([0xA5#8], .popsr)] = true := by decide +kernel

theorem test_decode_wordsControl :
    decodesAll [([0xB0#8, 0x81#8, 0x42#8], .jmpAbs 0x8142#16), ([0xB1#8, 0x81#8, 0x42#8], .jmpInd 0x8142#16),
      ([0xB2#8, 0x81#8, 0x42#8], .jeqAbs 0x8142#16), ([0xB3#8, 0x81#8, 0x42#8], .jneAbs 0x8142#16),
      ([0xB4#8, 0x81#8, 0x42#8], .jcsAbs 0x8142#16), ([0xB5#8, 0x81#8, 0x42#8], .jccAbs 0x8142#16),
      ([0xB6#8, 0x81#8, 0x42#8], .jnsAbs 0x8142#16), ([0xB7#8, 0x81#8, 0x42#8], .jncAbs 0x8142#16),
      ([0xB8#8, 0x81#8, 0x42#8], .josAbs 0x8142#16), ([0xB9#8, 0x81#8, 0x42#8], .jocAbs 0x8142#16),
      ([0xBA#8, 0x81#8, 0x42#8], .jltAbs 0x8142#16), ([0xBB#8, 0x81#8, 0x42#8], .jgeAbs 0x8142#16),
      ([0xBC#8, 0x81#8, 0x42#8], .callAbs 0x8142#16), ([0xBD#8], .ret)] = true := by decide +kernel

theorem test_decode_refuses :
    decode [] = .error .noOpcode ∧ decode [0x00#8, 0x01#8] = .error (.unrecognizedOpcode 0x00#8) ∧
    decode [0xBE#8] = .error (.unrecognizedOpcode 0xBE#8) ∧ decode [0x10#8, 0x12#8] = .error (.truncated 0x10#8) := by
  exact ⟨rfl, rfl, rfl, rfl⟩
theorem test_decodeTableWord :
    decodeTableWord 8 0xBC = some (.callAbs 0x0000#16) ∧ decodeTableWord 8 0x15 = some (.ldahImm1 0x00#8) ∧
    decodeTableWord 24 0x341210 = some (.ldaImm2 0x1234#16) ∧ decodeTableWord 8 0x00 = none := by decide +kernel
/-- The placed instruction is the one the next step runs, from reset. -/
theorem test_withFetchWord :
    (match step (State.reset.withFetchWord 8 0xBC) with
      | .next t => t.result == some (.ok .call) && t.pc == 0x0000#16 && t.sp == 0x0002#16
      | _ => false) = true := by decide +kernel

/-! Single steps. -/

/-- The state S0 of 95_test_vectors.md: after reset, PC at 0x0200. -/
def start : State := { State.reset with pc := 0x0200#16 }

/-- The state with the bytes of an instruction at its PC. -/
def code (bs : List Byte) (s : State) : State := { s with mem := placeBytes s.pc bs s.mem }

/-- One step with `bs` at PC ends in the result `r` and a state that passes `ok`. -/
def after (s : State) (bs : List Byte) (r : StepResult) (ok : State → Bool) : Bool :=
  match step (code bs s) with
  | .next t => t.result == some r && ok t
  | _ => false

theorem test_V1_ldaImm2 :
    after start [0x10#8, 0x12#8, 0x34#8] (.ok .lda)
      (fun t => t.pc == 0x0203#16 && t.a == 0x1234#16) = true := by decide +kernel

theorem test_V2_ldaAbs :
    after { start with mem := [(0x0300, 0xAB#8), (0x0301, 0xCD#8)] } [0x11#8, 0x03#8, 0x00#8] (.ok .lda)
      (fun t => t.pc == 0x0203#16 && t.a == 0xABCD#16) = true := by decide +kernel

theorem test_V3_ldaAbsi :
    after
      { start with i := 0x0010#16, mem := [(0x0310, 0x12#8), (0x0311, 0x34#8)] }
      [0x12#8, 0x03#8, 0x00#8] (.ok .lda)
      (fun t => t.pc == 0x0203#16 && t.a == 0x1234#16) = true := by decide +kernel

theorem test_V4_ldaAbsj :
    after
      { start with j := 0x0020#16, mem := [(0x0010, 0x56#8), (0x0011, 0x78#8)] }
      [0x13#8, 0xFF#8, 0xF0#8] (.ok .lda)
      (fun t => t.pc == 0x0203#16 && t.a == 0x5678#16) = true := by decide +kernel

theorem test_V5_ldaInd :
    after
      { start with mem := [(0x0040, 0x03#8), (0x0300, 0x9A#8), (0x0301, 0xBC#8)] }
      [0x14#8, 0x00#8, 0x40#8] (.ok .lda)
      (fun t => t.pc == 0x0203#16 && t.a == 0x9ABC#16 && t.ar == 0x0300#16) = true := by decide +kernel

theorem test_V6_ldaAbs :
    after { start with mem := [(0x0000, 0x34#8), (0xFFFF, 0x12#8)] } [0x11#8, 0xFF#8, 0xFF#8] (.ok .lda)
      (fun t => t.pc == 0x0203#16 && t.a == 0x1234#16) = true := by decide +kernel

theorem test_V7_ldahImm1 :
    after { start with a := 0x00FF#16 } [0x15#8, 0x7F#8] (.ok .ldah)
      (fun t => t.pc == 0x0202#16 && t.a == 0x7FFF#16) = true := by decide +kernel

theorem test_V8_ldalImm1 :
    after { start with a := 0x12FF#16, sr := 0x0C#8 } [0x17#8, 0x00#8] (.ok .ldal)
      (fun t => t.pc == 0x0202#16 && t.a == 0x1200#16) = true := by decide +kernel

theorem test_V9_ldalAbs :
    after { start with a := 0x1200#16, mem := [(0x0300, 0x7E#8)] } [0x18#8, 0x03#8, 0x00#8] (.ok .ldal)
      (fun t => t.pc == 0x0203#16 && t.a == 0x127E#16) = true := by decide +kernel

theorem test_V10_ldalAbsj :
    after { start with j := 0xFFFF#16, mem := [(0x02FF, 0x5A#8)] } [0x1A#8, 0x03#8, 0x00#8] (.ok .ldal)
      (fun t => t.pc == 0x0203#16 && t.a == 0x005A#16) = true := by decide +kernel

theorem test_V11_ldalInd :
    after
      { start with mem := [(0x0040, 0xF0#8), (0x0041, 0x01#8), (0xF001, 0x99#8)] }
      [0x1B#8, 0x00#8, 0x40#8] (.ok .ldal)
      (fun t => t.pc == 0x0203#16 && t.a == 0x0099#16) = true := by decide +kernel

theorem test_V12_ldbImm2 :
    after start [0x1C#8, 0xBE#8, 0xEF#8] (.ok .ldb)
      (fun t => t.pc == 0x0203#16 && t.b == 0xBEEF#16) = true := by decide +kernel

theorem test_V13_ldbAbs :
    after { start with mem := [(0x0300, 0x01#8), (0x0301, 0x02#8)] } [0x1D#8, 0x03#8, 0x00#8] (.ok .ldb)
      (fun t => t.pc == 0x0203#16 && t.b == 0x0102#16) = true := by decide +kernel

theorem test_V14_ldbhAbs :
    after { start with b := 0x00CC#16, mem := [(0x0300, 0xAA#8)] } [0x1F#8, 0x03#8, 0x00#8] (.ok .ldbh)
      (fun t => t.pc == 0x0203#16 && t.b == 0xAACC#16) = true := by decide +kernel

theorem test_V15_ldblImm1 :
    after { start with b := 0xAA00#16 } [0x20#8, 0x55#8] (.ok .ldbl)
      (fun t => t.pc == 0x0202#16 && t.b == 0xAA55#16) = true := by decide +kernel

theorem test_V16_ldiImm2 :
    after start [0x22#8, 0xFF#8, 0xFF#8] (.ok .ldi)
      (fun t => t.pc == 0x0203#16 && t.i == 0xFFFF#16) = true := by decide +kernel

theorem test_V17_ldiAbs :
    after { start with mem := [(0x0301, 0x05#8)] } [0x23#8, 0x03#8, 0x00#8] (.ok .ldi)
      (fun t => t.pc == 0x0203#16 && t.i == 0x0005#16) = true := by decide +kernel

theorem test_V18_ldjImm2 :
    after start [0x24#8, 0x00#8, 0x05#8] (.ok .ldj)
      (fun t => t.pc == 0x0203#16 && t.j == 0x0005#16) = true := by decide +kernel

theorem test_V19_ldjAbs :
    after { start with mem := [(0x0300, 0x80#8)] } [0x25#8, 0x03#8, 0x00#8] (.ok .ldj)
      (fun t => t.pc == 0x0203#16 && t.j == 0x8000#16) = true := by decide +kernel

theorem test_V20_ldspImm2 :
    after start [0x26#8, 0x40#8, 0x00#8] (.ok .ldsp)
      (fun t => t.pc == 0x0203#16 && t.sp == 0x4000#16) = true := by decide +kernel

theorem test_V21_ldspAbs :
    after { start with mem := [(0x0300, 0x01#8)] } [0x27#8, 0x03#8, 0x00#8] (.ok .ldsp)
      (fun t => t.pc == 0x0203#16 && t.sp == 0x0100#16) = true := by decide +kernel

theorem test_V23_ldalAbs :
    after { start with a := 0x1234#16 } [0x18#8, 0xE0#8, 0x02#8] (.error .ldal .unreadableMode)
      (fun t => t.pc == 0x0203#16) = true := by decide +kernel

theorem test_V26_ldaAbs :
    after
      { start with
        a := 0x1234#16,
        video := { Video.initial with x := 0x03#8, y := 0x05#8, fb := [(643, 0x42#8)] } }
      [0x11#8, 0xE0#8, 0x00#8] (.error .lda .unreadableMode)
      (fun t => t.pc == 0x0203#16) = true := by decide +kernel

theorem test_V27_ldaInd :
    after { start with a := 0x1234#16, ar := 0x5555#16 } [0x14#8, 0xE0#8, 0x01#8] (.error .lda .unreadableMode)
      (fun t => t.pc == 0x0203#16 && t.emh == 0xE0#8 && t.eml == 0x01#8) = true := by decide +kernel

theorem test_V28_staAbs :
    after { start with a := 0x12AB#16 } [0x30#8, 0x03#8, 0x00#8] (.ok .sta)
      (fun t => t.pc == 0x0203#16 && t.mem.read 0x0300 == 0x12#8 &&
        t.mem.read 0x0301 == 0xAB#8) = true := by decide +kernel

theorem test_V29_staAbsi :
    after { start with a := 0x12AB#16, i := 0x0002#16 } [0x31#8, 0x03#8, 0x00#8] (.ok .sta)
      (fun t => t.pc == 0x0203#16 && t.mem.read 0x0302 == 0x12#8 &&
        t.mem.read 0x0303 == 0xAB#8) = true := by decide +kernel

theorem test_V30_staAbsj :
    after { start with a := 0x12AB#16, j := 0x0100#16 } [0x32#8, 0x03#8, 0x00#8] (.ok .sta)
      (fun t => t.pc == 0x0203#16 && t.mem.read 0x0400 == 0x12#8 &&
        t.mem.read 0x0401 == 0xAB#8) = true := by decide +kernel

theorem test_V31_staInd :
    after { start with a := 0x12AB#16, mem := [(0x0040, 0x05#8)] } [0x33#8, 0x00#8, 0x40#8] (.ok .sta)
      (fun t => t.pc == 0x0203#16 && t.mem.read 0x0500 == 0x12#8 &&
        t.mem.read 0x0501 == 0xAB#8) = true := by decide +kernel

theorem test_V32_stahAbs :
    after { start with a := 0x12AB#16 } [0x34#8, 0x03#8, 0x00#8] (.ok .stah)
      (fun t => t.pc == 0x0203#16 && t.mem.read 0x0300 == 0x12#8) = true := by decide +kernel

theorem test_V33_stalAbs :
    after { start with a := 0x12AB#16 } [0x35#8, 0x03#8, 0x00#8] (.ok .stal)
      (fun t => t.pc == 0x0203#16 && t.mem.read 0x0300 == 0xAB#8) = true := by decide +kernel

theorem test_V34_stalAbsi :
    after { start with a := 0x00CD#16, i := 0x0003#16 } [0x36#8, 0x04#8, 0x00#8] (.ok .stal)
      (fun t => t.pc == 0x0203#16 && t.mem.read 0x0403 == 0xCD#8) = true := by decide +kernel

theorem test_V35_stalAbsj :
    after { start with a := 0x00CD#16, j := 0x0004#16 } [0x37#8, 0x04#8, 0x00#8] (.ok .stal)
      (fun t => t.pc == 0x0203#16 && t.mem.read 0x0404 == 0xCD#8) = true := by decide +kernel

theorem test_V36_stalInd :
    after { start with a := 0x00CD#16, mem := [(0x0040, 0x06#8)] } [0x38#8, 0x00#8, 0x40#8] (.ok .stal)
      (fun t => t.pc == 0x0203#16 && t.mem.read 0x0600 == 0xCD#8) = true := by decide +kernel

theorem test_V37_stbAbs :
    after { start with b := 0x34CD#16 } [0x39#8, 0x03#8, 0x00#8] (.ok .stb)
      (fun t => t.pc == 0x0203#16 && t.mem.read 0x0300 == 0x34#8 &&
        t.mem.read 0x0301 == 0xCD#8) = true := by decide +kernel

theorem test_V38_stbhAbs :
    after { start with b := 0x34CD#16 } [0x3A#8, 0x03#8, 0x00#8] (.ok .stbh)
      (fun t => t.pc == 0x0203#16 && t.mem.read 0x0300 == 0x34#8) = true := by decide +kernel

theorem test_V39_stblAbs :
    after { start with b := 0x34CD#16 } [0x3B#8, 0x03#8, 0x00#8] (.ok .stbl)
      (fun t => t.pc == 0x0203#16 && t.mem.read 0x0300 == 0xCD#8) = true := by decide +kernel

theorem test_V40_stiAbs :
    after { start with i := 0x0102#16 } [0x3C#8, 0x03#8, 0x00#8] (.ok .sti)
      (fun t => t.pc == 0x0203#16 && t.mem.read 0x0300 == 0x01#8 &&
        t.mem.read 0x0301 == 0x02#8) = true := by decide +kernel

theorem test_V41_stjAbs :
    after { start with j := 0x0304#16 } [0x3D#8, 0x03#8, 0x00#8] (.ok .stj)
      (fun t => t.pc == 0x0203#16 && t.mem.read 0x0300 == 0x03#8 &&
        t.mem.read 0x0301 == 0x04#8) = true := by decide +kernel

theorem test_V43_staAbs :
    after { start with a := 0x1234#16 } [0x30#8, 0xFF#8, 0xFF#8] (.error .sta .readOnlyRegionWrite)
      (fun t => t.pc == 0x0203#16) = true := by decide +kernel

theorem test_V46_staAbs :
    after { start with a := 0x1234#16 } [0x30#8, 0xE7#8, 0xFF#8] (.error .sta .readOnlyRegionWrite)
      (fun t => t.pc == 0x0203#16 && t.mem.read 0xE7FF == 0x12#8) = true := by decide +kernel

theorem test_V49_staAbs :
    after { start with a := 0x0305#16 } [0x30#8, 0xE0#8, 0x02#8] (.ok .sta)
      (fun t => t.pc == 0x0203#16 && t.video.x == 0x03#8 && t.video.y == 0x05#8) = true := by decide +kernel

theorem test_V50_stalAbs :
    after
      { start with
        a := 0x0099#16,
        video := { Video.initial with d1 := 0x42#8, x := 0x03#8, y := 0x05#8 } }
      [0x35#8, 0xE0#8, 0x00#8] (.ok .stal)
      (fun t => t.pc == 0x0203#16 && t.video.fb.read 643 == 0x42#8) = true := by decide +kernel

theorem test_V51_stalAbs :
    after
      { start with video := { Video.initial with d1 := 0x42#8, x := 0x00#8, y := 0x40#8 } }
      [0x35#8, 0xE0#8, 0x00#8] (.error .stal .outOfBoundsCoordinate)
      (fun t => t.pc == 0x0203#16) = true := by decide +kernel

theorem test_V56_staAbs :
    after { start with a := 0xAB01#16 } [0x30#8, 0xE0#8, 0x07#8] (.error .sta .unimplementedMode)
      (fun t => t.pc == 0x0203#16 && t.video.d4 == 0xAB#8) = true := by decide +kernel

theorem test_V57_tab :
    after { start with a := 0x1234#16 } [0x40#8] (.ok .tab)
      (fun t => t.pc == 0x0201#16 && t.b == 0x1234#16) = true := by decide +kernel

theorem test_V58_tba :
    after { start with b := 0x5678#16 } [0x41#8] (.ok .tba)
      (fun t => t.pc == 0x0201#16 && t.a == 0x5678#16) = true := by decide +kernel

theorem test_V59_tai :
    after { start with a := 0x0010#16 } [0x42#8] (.ok .tai)
      (fun t => t.pc == 0x0201#16 && t.i == 0x0010#16) = true := by decide +kernel

theorem test_V60_tia :
    after { start with i := 0x0020#16 } [0x43#8] (.ok .tia)
      (fun t => t.pc == 0x0201#16 && t.a == 0x0020#16) = true := by decide +kernel

theorem test_V61_taj :
    after { start with a := 0x0030#16 } [0x44#8] (.ok .taj)
      (fun t => t.pc == 0x0201#16 && t.j == 0x0030#16) = true := by decide +kernel

theorem test_V62_tja :
    after { start with j := 0x0040#16 } [0x45#8] (.ok .tja)
      (fun t => t.pc == 0x0201#16 && t.a == 0x0040#16) = true := by decide +kernel

theorem test_V63_tad :
    after { start with a := 0xD00D#16 } [0x46#8] (.ok .tad)
      (fun t => t.pc == 0x0201#16 && t.dr == 0xD00D#16) = true := by decide +kernel

theorem test_V64_tda :
    after { start with dr := 0xBEAD#16 } [0x47#8] (.ok .tda)
      (fun t => t.pc == 0x0201#16 && t.a == 0xBEAD#16) = true := by decide +kernel

theorem test_V65_tasp :
    after { start with a := 0x0400#16 } [0x48#8] (.ok .tasp)
      (fun t => t.pc == 0x0201#16 && t.sp == 0x0400#16) = true := by decide +kernel

theorem test_V66_tspa :
    after { start with sp := 0x0102#16 } [0x49#8] (.ok .tspa)
      (fun t => t.pc == 0x0201#16 && t.a == 0x0102#16) = true := by decide +kernel

theorem test_V68_tasr :
    after { start with a := 0x12FF#16 } [0x4A#8] (.ok .tasr)
      (fun t => t.pc == 0x0201#16 && t.sr == 0xFF#8) = true := by decide +kernel

theorem test_V71_tsra :
    after { start with a := 0x1200#16, sr := 0xCD#8 } [0x4B#8] (.ok .tsra)
      (fun t => t.pc == 0x0201#16 && t.a == 0x12CD#16) = true := by decide +kernel

theorem test_V73_addImm2 :
    after { start with a := 0x0001#16 } [0x50#8, 0x00#8, 0x01#8] (.ok .add)
      (fun t => t.pc == 0x0203#16 && t.a == 0x0002#16) = true := by decide +kernel

theorem test_V78_addAbs :
    after
      { start with a := 0x1000#16, mem := [(0x0300, 0x02#8), (0x0301, 0x34#8)] }
      [0x51#8, 0x03#8, 0x00#8] (.ok .add)
      (fun t => t.pc == 0x0203#16 && t.a == 0x1234#16) = true := by decide +kernel

theorem test_V79_subImm2 :
    after { start with a := 0x0005#16 } [0x52#8, 0x00#8, 0x03#8] (.ok .sub)
      (fun t => t.pc == 0x0203#16 && t.a == 0x0002#16 && t.sr == 0x0D#8) = true := by decide +kernel

theorem test_V86_subAbs :
    after { start with a := 0x0100#16, mem := [(0x0301, 0x01#8)] } [0x53#8, 0x03#8, 0x00#8] (.ok .sub)
      (fun t => t.pc == 0x0203#16 && t.a == 0x00FF#16 && t.sr == 0x0D#8) = true := by decide +kernel

theorem test_V87_andImm2 :
    after { start with a := 0xF0F0#16, sr := 0x4D#8 } [0x54#8, 0x0F#8, 0xF0#8] (.ok .and)
      (fun t => t.pc == 0x0203#16 && t.a == 0x00F0#16) = true := by decide +kernel

theorem test_V89_andAbs :
    after
      { start with a := 0xFFFF#16, mem := [(0x0300, 0x80#8), (0x0301, 0x01#8)] }
      [0x55#8, 0x03#8, 0x00#8] (.ok .and)
      (fun t => t.pc == 0x0203#16 && t.a == 0x8001#16 && t.sr == 0x8C#8) = true := by decide +kernel

theorem test_V90_orImm2 :
    after { start with a := 0x0010#16 } [0x56#8, 0x80#8, 0x01#8] (.ok .or)
      (fun t => t.pc == 0x0203#16 && t.a == 0x8011#16 && t.sr == 0x8C#8) = true := by decide +kernel

theorem test_V91_orAbs :
    after { start with a := 0x0000#16 } [0x57#8, 0x03#8, 0x00#8] (.ok .or)
      (fun t => t.pc == 0x0203#16 && t.sr == 0x0E#8) = true := by decide +kernel

theorem test_V92_addhImm1 :
    after { start with a := 0x12FF#16 } [0x58#8, 0x01#8] (.ok .addh)
      (fun t => t.pc == 0x0202#16 && t.a == 0x13FF#16) = true := by decide +kernel

theorem test_V94_addhAbs :
    after { start with a := 0x7F00#16, mem := [(0x0300, 0x01#8)] } [0x59#8, 0x03#8, 0x00#8] (.ok .addh)
      (fun t => t.pc == 0x0203#16 && t.a == 0x8000#16 && t.sr == 0xCC#8) = true := by decide +kernel

theorem test_V95_addlImm1 :
    after { start with a := 0x12FF#16 } [0x5A#8, 0x01#8] (.ok .addl)
      (fun t => t.pc == 0x0202#16 && t.a == 0x1200#16 && t.sr == 0x0F#8) = true := by decide +kernel

theorem test_V96_addlAbs :
    after { start with a := 0x0010#16, mem := [(0x0300, 0x22#8)] } [0x5B#8, 0x03#8, 0x00#8] (.ok .addl)
      (fun t => t.pc == 0x0203#16 && t.a == 0x0032#16) = true := by decide +kernel

theorem test_V97_subhImm1 :
    after { start with a := 0x0034#16 } [0x5C#8, 0x01#8] (.ok .subh)
      (fun t => t.pc == 0x0202#16 && t.a == 0xFF34#16 && t.sr == 0x8C#8) = true := by decide +kernel

theorem test_V98_subhAbs :
    after { start with a := 0x8000#16, mem := [(0x0300, 0x80#8)] } [0x5D#8, 0x03#8, 0x00#8] (.ok .subh)
      (fun t => t.pc == 0x0203#16 && t.a == 0x0000#16 && t.sr == 0x4F#8) = true := by decide +kernel

theorem test_V99_sublImm1 :
    after { start with a := 0x1220#16 } [0x5E#8, 0x10#8] (.ok .subl)
      (fun t => t.pc == 0x0202#16 && t.a == 0x1210#16 && t.sr == 0x0D#8) = true := by decide +kernel

theorem test_V100_sublAbs :
    after { start with a := 0x1200#16 } [0x5F#8, 0x03#8, 0x00#8] (.ok .subl)
      (fun t => t.pc == 0x0203#16 && t.sr == 0x0E#8) = true := by decide +kernel

theorem test_V101_andlImm1 :
    after { start with a := 0xFFF0#16 } [0x60#8, 0x0F#8] (.ok .andl)
      (fun t => t.pc == 0x0202#16 && t.a == 0xFF00#16 && t.sr == 0x0E#8) = true := by decide +kernel

theorem test_V102_andlAbs :
    after { start with a := 0x12FF#16, mem := [(0x0300, 0x81#8)] } [0x61#8, 0x03#8, 0x00#8] (.ok .andl)
      (fun t => t.pc == 0x0203#16 && t.a == 0x1281#16 && t.sr == 0x8C#8) = true := by decide +kernel

theorem test_V103_orlImm1 :
    after { start with a := 0x1201#16 } [0x62#8, 0x80#8] (.ok .orl)
      (fun t => t.pc == 0x0202#16 && t.a == 0x1281#16 && t.sr == 0x8C#8) = true := by decide +kernel

theorem test_V104_orlAbs :
    after { start with a := 0x1200#16 } [0x63#8, 0x03#8, 0x00#8] (.ok .orl)
      (fun t => t.pc == 0x0203#16 && t.sr == 0x0E#8) = true := by decide +kernel

theorem test_V105_addbImm2 :
    after { start with b := 0xFFFF#16, a := 0x1111#16 } [0x70#8, 0x00#8, 0x01#8] (.ok .addb)
      (fun t => t.pc == 0x0203#16 && t.b == 0x0000#16 && t.sr == 0x0F#8) = true := by decide +kernel

theorem test_V106_addbAbs :
    after { start with b := 0x0001#16, mem := [(0x0301, 0x02#8)] } [0x71#8, 0x03#8, 0x00#8] (.ok .addb)
      (fun t => t.pc == 0x0203#16 && t.b == 0x0003#16) = true := by decide +kernel

theorem test_V107_subbImm2 :
    after { start with b := 0x0000#16 } [0x72#8, 0x00#8, 0x01#8] (.ok .subb)
      (fun t => t.pc == 0x0203#16 && t.b == 0xFFFF#16 && t.sr == 0x8C#8) = true := by decide +kernel

theorem test_V108_subbAbs :
    after { start with b := 0x0010#16, mem := [(0x0301, 0x10#8)] } [0x73#8, 0x03#8, 0x00#8] (.ok .subb)
      (fun t => t.pc == 0x0203#16 && t.b == 0x0000#16 && t.sr == 0x0F#8) = true := by decide +kernel

theorem test_V109_andbImm2 :
    after { start with b := 0xAB12#16 } [0x74#8, 0x00#8, 0xFF#8] (.ok .andb)
      (fun t => t.pc == 0x0203#16 && t.b == 0x0012#16) = true := by decide +kernel

theorem test_V110_andbAbs :
    after { start with b := 0xAB12#16, mem := [(0x0300, 0xFF#8)] } [0x75#8, 0x03#8, 0x00#8] (.ok .andb)
      (fun t => t.pc == 0x0203#16 && t.b == 0xAB00#16 && t.sr == 0x8C#8) = true := by decide +kernel

theorem test_V111_orbImm2 :
    after { start with b := 0x0001#16 } [0x76#8, 0x01#8, 0x00#8] (.ok .orb)
      (fun t => t.pc == 0x0203#16 && t.b == 0x0101#16) = true := by decide +kernel

theorem test_V112_orbAbs :
    after { start with b := 0x0000#16, mem := [(0x0300, 0x80#8)] } [0x77#8, 0x03#8, 0x00#8] (.ok .orb)
      (fun t => t.pc == 0x0203#16 && t.b == 0x8000#16 && t.sr == 0x8C#8) = true := by decide +kernel

theorem test_V113_addbhImm1 :
    after { start with b := 0xF0AA#16 } [0x78#8, 0x10#8] (.ok .addbh)
      (fun t => t.pc == 0x0202#16 && t.b == 0x00AA#16 && t.sr == 0x0F#8) = true := by decide +kernel

theorem test_V114_addbhAbs :
    after { start with b := 0x0100#16, mem := [(0x0300, 0x01#8)] } [0x79#8, 0x03#8, 0x00#8] (.ok .addbh)
      (fun t => t.pc == 0x0203#16 && t.b == 0x0200#16) = true := by decide +kernel

theorem test_V115_addblImm1 :
    after { start with b := 0x0080#16 } [0x7A#8, 0x80#8] (.ok .addbl)
      (fun t => t.pc == 0x0202#16 && t.b == 0x0000#16 && t.sr == 0x4F#8) = true := by decide +kernel

theorem test_V116_addblAbs :
    after { start with b := 0x007F#16, mem := [(0x0300, 0x01#8)] } [0x7B#8, 0x03#8, 0x00#8] (.ok .addbl)
      (fun t => t.pc == 0x0203#16 && t.b == 0x0080#16 && t.sr == 0xCC#8) = true := by decide +kernel

theorem test_V117_subbhImm1 :
    after { start with b := 0x0100#16 } [0x7C#8, 0x01#8] (.ok .subbh)
      (fun t => t.pc == 0x0202#16 && t.b == 0x0000#16 && t.sr == 0x0F#8) = true := by decide +kernel

theorem test_V118_subbhAbs :
    after { start with b := 0x0500#16, mem := [(0x0300, 0x06#8)] } [0x7D#8, 0x03#8, 0x00#8] (.ok .subbh)
      (fun t => t.pc == 0x0203#16 && t.b == 0xFF00#16 && t.sr == 0x8C#8) = true := by decide +kernel

theorem test_V119_subblImm1 :
    after { start with b := 0xAA00#16 } [0x7E#8, 0x01#8] (.ok .subbl)
      (fun t => t.pc == 0x0202#16 && t.b == 0xAAFF#16 && t.sr == 0x8C#8) = true := by decide +kernel

theorem test_V120_subblAbs :
    after { start with b := 0x0003#16, mem := [(0x0300, 0x03#8)] } [0x7F#8, 0x03#8, 0x00#8] (.ok .subbl)
      (fun t => t.pc == 0x0203#16 && t.b == 0x0000#16 && t.sr == 0x0F#8) = true := by decide +kernel

theorem test_V121_andblImm1 :
    after { start with b := 0x12AB#16 } [0x80#8, 0xF0#8] (.ok .andbl)
      (fun t => t.pc == 0x0202#16 && t.b == 0x12A0#16 && t.sr == 0x8C#8) = true := by decide +kernel

theorem test_V122_andblAbs :
    after { start with b := 0x12AB#16 } [0x81#8, 0x03#8, 0x00#8] (.ok .andbl)
      (fun t => t.pc == 0x0203#16 && t.b == 0x1200#16 && t.sr == 0x0E#8) = true := by decide +kernel

theorem test_V123_orblImm1 :
    after { start with b := 0x12A0#16 } [0x82#8, 0x0F#8] (.ok .orbl)
      (fun t => t.pc == 0x0202#16 && t.b == 0x12AF#16 && t.sr == 0x8C#8) = true := by decide +kernel

theorem test_V124_orblAbs :
    after { start with b := 0x1200#16, mem := [(0x0300, 0x80#8)] } [0x83#8, 0x03#8, 0x00#8] (.ok .orbl)
      (fun t => t.pc == 0x0203#16 && t.b == 0x1280#16 && t.sr == 0x8C#8) = true := by decide +kernel

theorem test_V125_ini :
    after { start with i := 0x00FF#16 } [0x90#8] (.ok .ini)
      (fun t => t.pc == 0x0201#16 && t.i == 0x0100#16) = true := by decide +kernel

theorem test_V127_dei :
    after { start with i := 0x0001#16 } [0x91#8] (.ok .dei)
      (fun t => t.pc == 0x0201#16 && t.i == 0x0000#16 && t.sr == 0x0F#8) = true := by decide +kernel

theorem test_V129_inj :
    after { start with j := 0x7FFF#16 } [0x92#8] (.ok .inj)
      (fun t => t.pc == 0x0201#16 && t.j == 0x8000#16 && t.sr == 0xCC#8) = true := by decide +kernel

theorem test_V130_dej :
    after { start with j := 0x8000#16 } [0x93#8] (.ok .dej)
      (fun t => t.pc == 0x0201#16 && t.j == 0x7FFF#16 && t.sr == 0x4D#8) = true := by decide +kernel

theorem test_V132_psha :
    after { start with a := 0x12AB#16, sp := 0x0100#16 } [0xA0#8] (.ok .psha)
      (fun t => t.pc == 0x0201#16 && t.sp == 0x0102#16 && t.mem.read 0x0100 == 0x12#8 &&
        t.mem.read 0x0101 == 0xAB#8) = true := by decide +kernel

theorem test_V133_popa :
    after { start with sp := 0x0102#16, mem := [(0x0100, 0x12#8), (0x0101, 0xAB#8)] } [0xA1#8] (.ok .popa)
      (fun t => t.pc == 0x0201#16 && t.sp == 0x0100#16 && t.a == 0x12AB#16) = true := by decide +kernel

theorem test_V134_pshb :
    after { start with b := 0x34CD#16, sp := 0x0100#16 } [0xA2#8] (.ok .pshb)
      (fun t => t.pc == 0x0201#16 && t.sp == 0x0102#16 && t.mem.read 0x0100 == 0x34#8 &&
        t.mem.read 0x0101 == 0xCD#8) = true := by decide +kernel

theorem test_V135_popb :
    after { start with sp := 0x0102#16, mem := [(0x0100, 0x34#8), (0x0101, 0xCD#8)] } [0xA3#8] (.ok .popb)
      (fun t => t.pc == 0x0201#16 && t.sp == 0x0100#16 && t.b == 0x34CD#16) = true := by decide +kernel

theorem test_V136_pshsr :
    after { start with sp := 0x0100#16, sr := 0xCD#8 } [0xA4#8] (.ok .pshsr)
      (fun t => t.pc == 0x0201#16 && t.sp == 0x0101#16 && t.mem.read 0x0100 == 0xCD#8) = true := by decide +kernel

theorem test_V137_popsr :
    after { start with sp := 0x0101#16, mem := [(0x0100, 0x83#8)] } [0xA5#8] (.ok .popsr)
      (fun t => t.pc == 0x0201#16 && t.sp == 0x0100#16 && t.sr == 0x87#8) = true := by decide +kernel

theorem test_V147_jmpAbs :
    after start [0xB0#8, 0x03#8, 0x00#8] (.ok .jmp)
      (fun t => t.pc == 0x0300#16) = true := by decide +kernel

theorem test_V148_jmpInd :
    after { start with mem := [(0x0040, 0x12#8), (0x0041, 0x34#8)] } [0xB1#8, 0x00#8, 0x40#8] (.ok .jmp)
      (fun t => t.pc == 0x1234#16) = true := by decide +kernel

theorem test_V152_jeqAbs :
    after { start with sr := 0x0E#8 } [0xB2#8, 0x03#8, 0x00#8] (.ok .jeq)
      (fun t => t.pc == 0x0300#16) = true := by decide +kernel

theorem test_V154_jneAbs :
    after { start with sr := 0x0C#8 } [0xB3#8, 0x03#8, 0x00#8] (.ok .jne)
      (fun t => t.pc == 0x0300#16) = true := by decide +kernel

theorem test_V156_jcsAbs :
    after { start with sr := 0x0D#8 } [0xB4#8, 0x03#8, 0x00#8] (.ok .jcs)
      (fun t => t.pc == 0x0300#16) = true := by decide +kernel

theorem test_V158_jccAbs :
    after { start with sr := 0x0C#8 } [0xB5#8, 0x03#8, 0x00#8] (.ok .jcc)
      (fun t => t.pc == 0x0300#16) = true := by decide +kernel

theorem test_V160_jnsAbs :
    after { start with sr := 0x8C#8 } [0xB6#8, 0x03#8, 0x00#8] (.ok .jns)
      (fun t => t.pc == 0x0300#16) = true := by decide +kernel

theorem test_V162_jncAbs :
    after { start with sr := 0x0C#8 } [0xB7#8, 0x03#8, 0x00#8] (.ok .jnc)
      (fun t => t.pc == 0x0300#16) = true := by decide +kernel

theorem test_V164_josAbs :
    after { start with sr := 0x4C#8 } [0xB8#8, 0x03#8, 0x00#8] (.ok .jos)
      (fun t => t.pc == 0x0300#16) = true := by decide +kernel

theorem test_V166_jocAbs :
    after { start with sr := 0x0C#8 } [0xB9#8, 0x03#8, 0x00#8] (.ok .joc)
      (fun t => t.pc == 0x0300#16) = true := by decide +kernel

theorem test_V168_jltAbs :
    after { start with sr := 0x8C#8 } [0xBA#8, 0x03#8, 0x00#8] (.ok .jlt)
      (fun t => t.pc == 0x0300#16) = true := by decide +kernel

theorem test_V172_jgeAbs :
    after { start with sr := 0x0C#8 } [0xBB#8, 0x03#8, 0x00#8] (.ok .jge)
      (fun t => t.pc == 0x0300#16) = true := by decide +kernel

theorem test_V177_callAbs :
    after { start with sp := 0x0100#16 } [0xBC#8, 0x03#8, 0x00#8] (.ok .call)
      (fun t => t.pc == 0x0300#16 && t.sp == 0x0102#16 && t.mem.read 0x0100 == 0x02#8 &&
        t.mem.read 0x0101 == 0x03#8) = true := by decide +kernel

theorem test_V178_ret :
    after { start with sp := 0x0102#16, mem := [(0x0100, 0x02#8), (0x0101, 0x03#8)] } [0xBD#8] (.ok .ret)
      (fun t => t.pc == 0x0203#16 && t.sp == 0x0100#16) = true := by decide +kernel

theorem test_V183_clc :
    after { start with sr := 0xFF#8 } [0x08#8] (.ok .clc)
      (fun t => t.pc == 0x0201#16 && t.sr == 0xFE#8) = true := by decide +kernel

theorem test_V184_sec :
    after { start with sr := 0x0C#8 } [0x09#8] (.ok .sec)
      (fun t => t.pc == 0x0201#16 && t.sr == 0x0D#8) = true := by decide +kernel

theorem test_V185_clo :
    after { start with sr := 0xFF#8 } [0x0A#8] (.ok .clo)
      (fun t => t.pc == 0x0201#16 && t.sr == 0xBF#8) = true := by decide +kernel

theorem test_V186_cld :
    after { start with sr := 0xFF#8 } [0x0B#8] (.ok .cld)
      (fun t => t.pc == 0x0201#16 && t.sr == 0xEF#8) = true := by decide +kernel

theorem test_V187_sed :
    after { start with sr := 0x0C#8 } [0x0C#8] (.ok .sed)
      (fun t => t.pc == 0x0201#16 && t.sr == 0x1C#8) = true := by decide +kernel

theorem test_V188_cli :
    after { start with sr := 0xFF#8 } [0x0D#8] (.ok .cli)
      (fun t => t.pc == 0x0201#16 && t.sr == 0xDF#8) = true := by decide +kernel

theorem test_V189_sei :
    after { start with sr := 0x0C#8 } [0x0E#8] (.ok .sei)
      (fun t => t.pc == 0x0201#16 && t.sr == 0x2C#8) = true := by decide +kernel

theorem test_V190_cls :
    after { start with sr := 0xFF#8 } [0x0F#8] (.ok .cls)
      (fun t => t.pc == 0x0201#16 && t.sr == 0xF7#8) = true := by decide +kernel

theorem test_V195_nop :
    after start [0x01#8] (.ok .nop)
      (fun t => t.pc == 0x0201#16 && t.ir == 0x01#8) = true := by decide +kernel

theorem test_V196_halt :
    after start [0x02#8] (.ok .halt)
      (fun t => t.pc == 0x0201#16 && t.run == .halted) = true := by decide +kernel

theorem test_V198_opcode00 :
    after start [0x00#8] (.fault .unrecognizedOpcode)
      (fun t => t.pc == 0x0201#16 && t.run == .faulted) = true := by decide +kernel

theorem test_V199_opcodeFF :
    after start [0xFF#8] (.fault .unrecognizedOpcode)
      (fun t => t.pc == 0x0201#16 && t.ir == 0xFF#8 && t.run == .faulted) = true := by decide +kernel

theorem test_V200_opcode03 :
    after start [0x03#8, 0x12#8, 0x34#8] (.fault .unrecognizedOpcode)
      (fun t => t.pc == 0x0201#16 && t.ir == 0x03#8 && t.run == .faulted) = true := by decide +kernel

/-- The example of R143. -/
theorem test_R143_ldahAbs :
    after { start with a := 0x5555#16, mem := [(0x0300, 0xBE#8), (0x0301, 0xEF#8)] } [0x16#8, 0x03#8, 0x00#8] (.ok .ldah)
      (fun t => t.a == 0xBE55#16 && t.ar == 0x0300#16) = true := by decide +kernel

/-- The worked step of R130. -/
theorem test_R130_ldalAbsi :
    after { start with i := 0x0005#16, a := 0x1234#16, mem := [(0x0305, 0x7E#8)] } [0x19#8, 0x03#8, 0x00#8] (.ok .ldal)
      (fun t => t.a == 0x127E#16 && t.ar == 0x0305#16) = true := by decide +kernel

/-- The example of R146. -/
theorem test_R146_ldbhImm1 :
    after { start with b := 0x6666#16 } [0x1E#8, 0x9C#8] (.ok .ldbh)
      (fun t => t.b == 0x9C66#16 && t.iml == 0x9C#8) = true := by decide +kernel

/-- The example of R147. -/
theorem test_R147_ldblAbs :
    after { start with b := 0x6666#16, mem := [(0x0300, 0xBE#8), (0x0301, 0xEF#8)] } [0x21#8, 0x03#8, 0x00#8] (.ok .ldbl)
      (fun t => t.b == 0x66BE#16) = true := by decide +kernel

/-! For every statement with hypotheses, a state and operands that meet them, clause by clause, at boundary values. -/

/-- X = 3, Y = 5 and a cell there that reads 0x10, so that the port address 0xE000 can be read and 0xE001 cannot. -/
def plotting : State :=
  { start with video := { Video.initial with d1 := 0x42#8, x := 0x03#8, y := 0x05#8, fb := [(643, 0x10#8)] } }

/-- The port address 0xE000 cannot be read: cell 8192 is out of bounds. -/
def outOfBounds : State := { start with video := { Video.initial with y := 0x40#8 } }

/-- User mode. -/
def user : State := { start with sr := 0x04#8 }

/-- Two words in RAM: a pointer at 0x0040 to 0x0300, and 0x12AB at 0x0300. -/
def words : State := { start with mem := [(0x0040, 0x03#8), (0x0300, 0x12#8), (0x0301, 0xAB#8)] }

theorem start_valid : start.Valid Config.reference :=
  ⟨by unfold StatusValid; decide, ⟨by decide, by decide, fun _ _ h => nomatch h⟩, by decide, by decide⟩

theorem test_witness_EncodeOfDecode : decode [0xBD#8, 0x00#8] = .ok (.ret, [0x00#8]) := rfl

theorem test_witness_UnassignedOpcodesRefused :
    Unassigned 0x00#8 ∧ Unassigned 0x07#8 ∧ Unassigned 0x28#8 ∧ Unassigned 0xFF#8 ∧
    ¬ Unassigned 0x01#8 ∧ ¬ Unassigned 0x27#8 ∧ ¬ Unassigned 0xBD#8 := by
  refine ⟨?_, ?_, ?_, ?_, ?_, ?_, ?_⟩ <;> unfold Unassigned <;> decide

/-- A three-byte instruction at the top of memory, its last byte at 0x0000 (R128). -/
theorem test_witness_StepRunsDecodedInstruction :
    let s := code [0x10#8, 0x12#8, 0x34#8] { start with pc := 0xFFFE#16 }
    s.run = .running ∧ FetchesBytes s s.pc [0x10#8, 0x12#8, 0x34#8] ∧
    decode [0x10#8, 0x12#8, 0x34#8] = .ok (.ldaImm2 0x1234#16, []) :=
  ⟨rfl, ⟨rfl, rfl, rfl, trivial⟩, rfl⟩

theorem test_witness_FetchErrorsFault_opcode :
    start.run = .running ∧ ByteReadFails { start with pc := 0xE001#16 } 0xE001#16 .unreadableMode ∧
    ByteReadFails { outOfBounds with pc := 0xE000#16 } 0xE000#16 .outOfBoundsCoordinate := ⟨rfl, rfl, rfl⟩

/-- The opcode is the framebuffer cell read through the port; its first operand byte is unreadable. -/
theorem test_witness_FetchErrorsFault_first :
    let s := { plotting with pc := 0xE000#16 }
    s.run = .running ∧ ReadsByte s s.pc 0x10#8 ∧ refItab.lookup 0x10#8 = some ⟨.lda, .imm2, 2, false⟩ ∧
    AddrMode.imm2 ≠ .imp ∧ ByteReadFails s (s.pc + 1#16) .unreadableMode := ⟨rfl, rfl, rfl, by decide, rfl⟩

/-- A second operand byte that falls on the port, for an immediate and for an address. -/
theorem test_witness_FetchErrorsFault_second :
    (let s := code [0x10#8, 0x12#8] { outOfBounds with pc := 0xDFFE#16 }
     s.run = .running ∧ ReadsByte s s.pc 0x10#8 ∧ refItab.lookup 0x10#8 = some ⟨.lda, .imm2, 2, false⟩ ∧
     ReadsByte s (s.pc + 1#16) 0x12#8 ∧ ByteReadFails s (s.pc + 2#16) .outOfBoundsCoordinate) ∧
    (let s := code [0x11#8, 0x12#8] { outOfBounds with pc := 0xDFFE#16 }
     s.run = .running ∧ ReadsByte s s.pc 0x11#8 ∧ refItab.lookup 0x11#8 = some ⟨.lda, .abs, 2, false⟩ ∧
     ReadsByte s (s.pc + 1#16) 0x12#8 ∧ ByteReadFails s (s.pc + 2#16) .outOfBoundsCoordinate) :=
  ⟨⟨rfl, rfl, rfl, rfl, rfl⟩, rfl, rfl, rfl, rfl, rfl⟩

theorem test_witness_UnassignedOpcodeFaults :
    start.run = .running ∧ ReadsByte start start.pc 0x00#8 ∧ refItab.lookup 0x00#8 = none := ⟨rfl, rfl, rfl⟩

theorem test_witness_PrivilegedInUserModeFaults :
    let s := code [0x02#8] user
    s.run = .running ∧ ReadsByte s s.pc 0x02#8 ∧ refItab.lookup 0x02#8 = some ⟨.halt, .imp, 0, true⟩ ∧
    s.supervisor = false ∧ Instr.tasr ∈ [Instr.halt, .cli, .sei, .cls, .tasr, .popsr] :=
  ⟨rfl, rfl, rfl, rfl, by decide⟩

theorem test_witness_StoppedCoreStays :
    ({ start with run := .halted } : State).run ≠ .running ∧ ({ start with run := .faulted } : State).run ≠ .running := by
  decide

theorem test_witness_EveryStepKeepsValid :
    let s := { start with mem := [(0x0200, 0x30#8), (0x0201, 0x03#8)] }
    s.Valid Config.reference ∧ Completes (step s) := by
  refine ⟨⟨by unfold StatusValid; decide, ⟨by decide, by decide, fun a b h => ?_⟩, by decide, by decide⟩, ⟨_, rfl⟩⟩
  simp only [List.mem_cons, List.not_mem_nil, or_false, Prod.mk.injEq] at h
  rcases h with ⟨rfl, -⟩ | ⟨rfl, -⟩ <;> rfl

theorem test_witness_UserModeIsNeverLeft : user.supervisor = false ∧ Completes (step (code [0x4A#8] user)) :=
  ⟨rfl, ⟨_, rfl⟩⟩

/-- A word store whose second byte falls on the character map. -/
theorem test_witness_ReadOnlyBytesNeverChange :
    let s := code [0x30#8, 0xE7#8, 0xFF#8] { start with a := 0x1234#16 }
    s.mem.wf = true ∧ InReadOnly 0xE800#16 ∧ InReadOnly 0xFFFF#16 ∧ Completes (step s) :=
  ⟨rfl, by unfold InReadOnly; decide, by unfold InReadOnly; decide, ⟨_, rfl⟩⟩

theorem test_witness_StatusRegisterWriters :
    Completes (exec .nop start) ∧ Completes (exec (.andlImm1 0#8) start) ∧ Completes (exec .ini start) ∧
    Completes (exec .clc start) ∧ Completes (exec .clo start) ∧ Completes (exec .sed start) ∧
    Completes (exec .cli start) ∧ Completes (exec .cls start) ∧ StatusValid start.sr ∧
    Instr.nop.mnemonic ∉ [Mnemonic.clc, .sec, .clo, .cld, .sed, .cli, .sei, .cls, .tasr, .popsr,
      .add, .sub, .and, .or, .addh, .addl, .subh, .subl, .andl, .orl,
      .addb, .subb, .andb, .orb, .addbh, .addbl, .subbh, .subbl, .andbl, .orbl, .ini, .dei, .inj, .dej] ∧ (Instr.andlImm1 0#8).mnemonic ∈ [Mnemonic.and, .andl] ∧
    Instr.ini.mnemonic ∈ [Mnemonic.ini] ∧ Flag.n ≠ .z ∧ Flag.c ≠ .n :=
  ⟨⟨_, rfl⟩, ⟨_, rfl⟩, ⟨_, rfl⟩, ⟨_, rfl⟩, ⟨_, rfl⟩, ⟨_, rfl⟩, ⟨_, rfl⟩, ⟨_, rfl⟩, start_valid.1, by decide, by decide,
    by decide, by decide, by decide⟩

theorem test_witness_MemoryAndDeviceWriters :
    Completes (exec (.ldaAbs 0xE001#16) start) ∧
    (Instr.ldaAbs 0xE001#16).mnemonic ∉ [Mnemonic.sta, .stah, .stal, .stb, .stbh, .stbl, .sti, .stj, .psha, .pshb,
      .pshsr, .call] := ⟨⟨_, rfl⟩, by decide⟩

theorem test_witness_DataRegisterWriter :
    (match step (code [0x46#8] { start with a := 0x0001#16 }) with
      | .next t => t.dr != start.dr
      | _ => false) = true := by decide +kernel

theorem test_witness_UnreadLatchesAreInvisible : Completes (step (code [0x35#8, 0xE0#8, 0x05#8] start)) := ⟨_, rfl⟩

theorem test_witness_TableConstraintsPreventRefusal :
    refItab.wellFormed = true ∧ Itab.wellFormed [(0x01#8, ⟨.jmp, .tagged .absj, 2, true⟩)] = true ∧
    refItab.lookup 0x10#8 = some ⟨.lda, .imm2, 2, false⟩ := by
  refine ⟨?_, ?_, ?_⟩ <;> decide +kernel

theorem test_witness_HostResetValues : StatusValid 0x34#8 := by unfold StatusValid; decide

theorem test_witness_HostResetIsIdempotent : start.Valid Config.reference := start_valid

/-- A machine with regions of two bytes, so that its images can be written out. -/
def smallConfig (cart : Bool) : Config :=
  { Config.reference with romLo := 0xF000, romHi := 0xF001, charLo := 0xE800, charHi := 0xE801
                          cartLo := 0x8000, cartHi := 0x8001, cartPresent := cart }

/-- Power-on inputs that fit it. -/
def smallInputs : PowerOn where
  ramInit := [(0x0001, 0x11#8), (0x8001, 0x22#8)]
  romImage := [0x01#8, 0x02#8]
  charImage := [0x03#8, 0x04#8]
  cartImage := [0x05#8, 0x06#8]
  video := { Video.initial with x := 0x07#8, fb := [(8191, 0x08#8)] }
  flagI := true
  flagD := false

theorem test_witness_BootGivesResetState :
    (∃ s, boot (smallConfig true) smallInputs = .ok s) ∧ (∃ s, boot (smallConfig false) smallInputs = .ok s) ∧
    smallInputs.romImage[1]? = some 0x02#8 ∧ smallInputs.charImage[0]? = some 0x03#8 ∧
    smallInputs.cartImage[1]? = some 0x06#8 ∧ (smallConfig true).cartPresent = true ∧
    (smallConfig false).cartPresent = false ∧ regionOf (smallConfig true) 0x0001 = .ram ∧
    regionOf (smallConfig false) 0x8001 = .cartridge :=
  ⟨⟨_, rfl⟩, ⟨_, rfl⟩, rfl, rfl, rfl, rfl, rfl, rfl, rfl⟩

/-- An image of the wrong length, and power-on bytes behind the port, are refused. -/
theorem test_boot_refuses :
    (match boot (smallConfig true) { smallInputs with romImage := [0x01#8] },
      boot (smallConfig true) { smallInputs with ramInit := [(0xE000, 0x01#8)] } with
      | .error .badImage, .error .badContents => true
      | _, _ => false) = true := by decide +kernel

/-- The first and last address of each region. -/
theorem test_witness_RegionMap :
    [0x0000, 0x7FFF, 0xC000, 0xDFFF, 0xE009, 0xE7FF].all (fun a => regionOf Config.reference a == .ram) = true ∧
    [0x8000, 0xBFFF].all (fun a => regionOf Config.reference a == .cartridge) = true ∧
    [0xE800, 0xEFFF].all (fun a => regionOf Config.reference a == .charMap) = true ∧
    [0xF000, 0xFFFF].all (fun a => regionOf Config.reference a == .rom) = true := by decide

theorem test_witness_BusReadRule :
    ¬ InPort 0xDFFF#16 ∧ ¬ InPort 0xE009#16 ∧ InPort 0xE000#16 ∧ InPort 0xE008#16 ∧
    videoModeAt ((0xE000#16).toNat - 0xE000) = some .plot ∧ videoModeAt ((0xE008#16).toNat - 0xE000) = some .text := by
  unfold InPort; decide

theorem test_witness_BusWriteRule :
    InReadOnly 0xE800#16 ∧ InReadOnly 0xFFFF#16 ∧ InRam 0x0000#16 ∧ InRam 0xDFFF#16 ∧ InRam 0xE009#16 ∧
    InRam 0xE7FF#16 ∧ InPort 0xE001#16 ∧ videoModeAt ((0xE001#16).toNat - 0xE000) = some .clear ∧
    start.mem.wf = true := by unfold InReadOnly InRam InPort; decide

/-- Reads and writes across 0xFFFF and across the port; each clause at an address where it applies. -/
theorem test_witness_WordAccessOrder :
    ReadsByte start 0xFFFF#16 0x00#8 ∧ ReadsByte start (0xFFFF#16 + 1#16) 0x00#8 ∧
    WordReadFails start 0xE001#16 .unreadableMode ∧ WordReadFails plotting 0xE000#16 .unreadableMode ∧
    busWrite Config.reference start 0x0300#16 0x12#8 = .ok { start with mem := [(0x0300, 0x12#8)] } ∧
    busWrite Config.reference start 0xFFFF#16 0x12#8 = .error .readOnlyRegionWrite ∧
    busWrite Config.reference start 0xE7FF#16 0x12#8 = .ok { start with mem := [(0xE7FF, 0x12#8)] } ∧
    busWrite Config.reference { start with mem := [(0xE7FF, 0x12#8)] } 0xE800#16 0x34#8 =
      .error .readOnlyRegionWrite :=
  ⟨rfl, rfl, .inl rfl, .inr ⟨0x10#8, rfl, rfl⟩, rfl, rfl, rfl, rfl⟩

theorem test_witness_VideoLatchCommands : VideoMode.clear ≠ .plot ∧ VideoMode.text ≠ .plot := by decide

/-- The last cell in bounds is 8191 = 255 + 62 * 128; cell 8192 is not (R358). -/
theorem test_witness_VideoPlotRule :
    (0xFF#8).toNat + (0x3E#8).toNat * 128 < 128 * 64 ∧ 128 * 64 ≤ (0x00#8).toNat + (0x40#8).toNat * 128 ∧
    plotting.video.fb.wf = true := by decide

theorem test_witness_VideoClearRule : 8191 < Config.reference.rasterW * Config.reference.rasterH := by decide

theorem test_witness_StatusRegisterLayout : Flag.c = Flag.c ∧ Flag.n ≠ Flag.c := by decide

theorem test_witness_FlaggedOperationsClosedForms : 8 ∈ [8, 16] ∧ 16 ∈ [8, 16] := by decide

/-- The word 0x12AB at 0x0300, reached directly, by I, by J (wrapping), and through the pointer at 0x0040. -/
theorem test_witness_WordLoadsFromMemory :
    ReadsWord words 0x0300#16 0x12AB#16 ∧ ReadsWord { words with i := 0x0010#16 } (0x02F0#16 + 0x0010#16) 0x12AB#16 ∧
    ReadsWord { words with j := 0x0310#16 } (0xFFF0#16 + 0x0310#16) 0x12AB#16 ∧
    ReadsWord words 0x0040#16 0x0300#16 := ⟨⟨rfl, rfl⟩, ⟨rfl, rfl⟩, ⟨rfl, rfl⟩, rfl, rfl⟩

theorem test_witness_ByteLoadsFromMemory :
    ReadsByte words 0x0301#16 0xAB#8 ∧ ReadsByte { words with i := 0x0010#16 } (0x02F0#16 + 0x0010#16) 0x12#8 ∧
    ReadsByte { words with j := 0x0310#16 } (0xFFF0#16 + 0x0310#16) 0x12#8 ∧
    ReadsWord words 0x0040#16 0x0300#16 ∧ ReadsByte words 0x0300#16 0x12#8 := ⟨rfl, rfl, rfl, ⟨rfl, rfl⟩, rfl⟩

/-- Failing reads: first byte, second byte, the byte alone, indexed, the pointer, and behind a good pointer. -/
theorem test_witness_OperandReadErrors :
    WordReadFails start 0xE001#16 .unreadableMode ∧ WordReadFails plotting 0xE000#16 .unreadableMode ∧
    ByteReadFails start 0xE008#16 .unreadableMode ∧
    WordReadFails { start with i := 0x0002#16 } (0xDFFF#16 + 0x0002#16) .unreadableMode ∧
    WordReadFails { start with j := 0xFFFF#16 } (0xE002#16 + 0xFFFF#16) .unreadableMode ∧
    ByteReadFails outOfBounds 0xE000#16 .outOfBoundsCoordinate ∧
    (let s := { start with mem := [(0x0040, 0xE0#8), (0x0041, 0x02#8)] }
     ReadsWord s 0x0040#16 0xE002#16 ∧ WordReadFails s 0xE002#16 .unreadableMode ∧
     ByteReadFails s 0xE002#16 .unreadableMode) :=
  ⟨.inl rfl, .inr ⟨0x10#8, rfl, rfl⟩, rfl, .inl rfl, .inl rfl, rfl, ⟨rfl, rfl⟩, .inl rfl, rfl⟩

/-- The last word of each RAM range, and a pointer to one. -/
theorem test_witness_WordStoresInRam :
    start.mem.wf = true ∧ InRam 0xDFFE#16 ∧ InRam (0xDFFE#16 + 1#16) ∧ InRam 0xE7FE#16 ∧ InRam (0xE7FE#16 + 1#16) ∧
    InRam (0xFFFF#16 + 0x0001#16) ∧ InRam (0xFFFF#16 + 0x0001#16 + 1#16) ∧
    InRam 0x0300#16 ∧ InRam (0x0300#16 + 1#16) ∧ words.mem.wf = true ∧ ReadsWord words 0x0040#16 0x0300#16 := by
  refine ⟨?_, ?_, ?_, ?_, ?_, ?_, ?_, ?_, ?_, ?_, rfl, rfl⟩ <;> first | decide | (unfold InRam; decide)

theorem test_witness_ByteStoresInRam :
    start.mem.wf = true ∧ InRam 0xDFFF#16 ∧ InRam 0xE009#16 ∧ InRam (0xFFFF#16 + 0x0001#16) ∧
    InRam 0x0300#16 ∧ words.mem.wf = true ∧ ReadsWord words 0x0040#16 0x0300#16 := by
  refine ⟨?_, ?_, ?_, ?_, ?_, ?_, rfl, rfl⟩ <;> first | decide | (unfold InRam; decide)

/-- A rejected first byte, a rejected second byte after a stored first, two device commands; then one byte. -/
theorem test_witness_StoresOutsideRam :
    let s := { start with a := 0x1234#16 }
    busWrite Config.reference (s.atAddress 0xF000#16 0xF000#16) 0xF000#16 0x12#8 = .error .readOnlyRegionWrite ∧
    (∃ t, busWrite Config.reference (s.atAddress 0xE7FF#16 0xE7FF#16) 0xE7FF#16 0x12#8 = .ok t ∧
      busWrite Config.reference t (0xE7FF#16 + 1#16) 0x34#8 = .error .readOnlyRegionWrite) ∧
    (∃ t u, busWrite Config.reference (s.atAddress 0xE002#16 0xE002#16) 0xE002#16 0x12#8 = .ok t ∧
      busWrite Config.reference t (0xE002#16 + 1#16) 0x34#8 = .ok u) ∧
    busWrite Config.reference (s.atAddress 0xE008#16 0xE008#16) 0xE008#16 0x34#8 = .error .unimplementedMode ∧
    WordReadFails s 0xE001#16 .unreadableMode ∧ ReadsWord words 0x0040#16 0x0300#16 :=
  ⟨rfl, ⟨_, rfl, rfl⟩, ⟨_, _, rfl, rfl⟩, rfl, .inl rfl, rfl, rfl⟩

theorem test_witness_StatusTransfers : start.supervisor = true := by decide

theorem test_witness_WordAdditions : ReadsWord words 0x0300#16 0x12AB#16 := ⟨rfl, rfl⟩
theorem test_witness_WordSubtractions : ReadsWord words 0xFFFF#16 0x0000#16 := ⟨rfl, rfl⟩
theorem test_witness_WordLogic : ReadsWord words 0x0301#16 0xAB00#16 := ⟨rfl, rfl⟩
theorem test_witness_HalfAdditions : ReadsByte words 0x0301#16 0xAB#8 := rfl
theorem test_witness_HalfSubtractions : ReadsByte plotting 0xE000#16 0x10#8 := rfl
theorem test_witness_HalfLogic : ReadsByte words 0xFFFF#16 0x00#8 := rfl

/-- The stack pointer at the last word, and for one byte at the last byte, of RAM below the port. -/
theorem test_witness_PushesInRam :
    let s := { start with sp := 0xDFFE#16 }
    s.mem.wf = true ∧ InRam s.sp ∧ InRam (s.sp + 1#16) ∧ InRam 0xDFFF#16 := by unfold InRam; decide

/-- A pop from the empty stack wraps below 0x0000. -/
theorem test_witness_Pops :
    ReadsByte start (start.sp - 1#16) 0x00#8 ∧ ReadsByte start (start.sp - 2#16) 0x00#8 ∧ start.supervisor = true :=
  ⟨rfl, rfl, by decide⟩

theorem test_witness_StackErrors :
    busWrite Config.reference { start with sp := 0xFFFF#16 } 0xFFFF#16 0x00#8 = .error .readOnlyRegionWrite ∧
    (∃ t, busWrite Config.reference { start with sp := 0xE7FF#16 } 0xE7FF#16 0x00#8 = .ok t ∧
      busWrite Config.reference { t with sp := 0xE7FF#16 + 1#16 } (0xE7FF#16 + 1#16) 0x00#8 =
        .error .readOnlyRegionWrite) ∧
    ByteReadFails { start with sp := 0xE003#16 } (0xE003#16 - 1#16) .unreadableMode ∧
    (let s := { start with sp := 0xE00A#16 }
     ReadsByte s (s.sp - 1#16) 0x00#8 ∧ ByteReadFails s (s.sp - 2#16) .unreadableMode) ∧ start.supervisor = true :=
  ⟨rfl, ⟨_, rfl, rfl⟩, rfl, ⟨rfl, rfl⟩, by decide⟩

/-- A push of two bytes into the latches X and Y. -/
theorem test_witness_PushesOutsideRam :
    let s := { start with sp := 0xE002#16, a := 0x0305#16 }
    ∃ t u, busWrite Config.reference s s.sp 0x03#8 = .ok t ∧
      busWrite Config.reference { t with sp := s.sp + 1#16 } (s.sp + 1#16) 0x05#8 = .ok u := ⟨_, _, rfl, rfl⟩

theorem test_witness_IndirectJump :
    ReadsWord words 0x0040#16 0x0300#16 ∧ WordReadFails words 0xE001#16 .unreadableMode := ⟨⟨rfl, rfl⟩, .inl rfl⟩

theorem test_witness_CallAndReturn :
    start.mem.wf = true ∧ InRam start.sp ∧ InRam (start.sp + 1#16) ∧
    busRead Config.reference start (start.sp - 1#16) = .ok 0x00#8 ∧
    busRead Config.reference start (start.sp - 2#16) = .ok 0x00#8 :=
  ⟨by decide, by unfold InRam; decide, by unfold InRam; decide, rfl, rfl⟩

theorem test_witness_SupervisorInstructions : start.supervisor = true := by decide

/-- A loop of two steps, cut by its bound, and one that ends by itself. -/
theorem test_witness_SteppingLoopsEnd :
    (let s := code [0x01#8, 0x08#8] start
     ∃ t u, (stepLoop (fun _ => false) 2 s)[0]? = some t ∧ (stepLoop (fun _ => false) 2 s)[1]? = some u) ∧
    (let s := code [0x01#8] start
     (stepLoop (fun _ => true) 2 s).length < 2 ∧ ∃ t, (stepLoop (fun _ => true) 2 s).getLast? = some t) ∧
    Completes (step (code [0x01#8] start)) ∧ 0 < 1 :=
  ⟨⟨_, _, rfl, rfl⟩, ⟨by decide +kernel, _, rfl⟩, ⟨_, rfl⟩, by decide⟩

/-- R341: `run` asks for the status after each step, `nj` for none, `ni` for one. -/
theorem test_command_statuses :
    (let s := code [0x01#8, 0x08#8] start
     (commandStatuses .run 2 s).length = 2 ∧ (commandStatuses .nj 2 s).length = 0 ∧ (command .nj 2 s).length = 2 ∧
     (commandStatuses .ni 2 s).length = 1 ∧ (commandStatuses .reset 2 s).length = 0) := by decide +kernel

end Sys2Proof.Tests
end

section
/-! PROOF of O20. The open machine and the reference machine run the same cycle; they differ in the operation under an
opcode: `operate` reads a (mnemonic, mode) pair, `exec` an instruction, and a privileged meaning of `exec` checks S once
more (log 6). So: each row's meaning is its pair's operation behind that second check, and in a cycle the second check
repeats the first. -/

namespace Sys2Proof.Machine

/-- An operation behind a second privilege check, made when the descriptor asks for one. -/
def checked (needsPrivilege : Bool) (run : State → Outcome) (s : State) : Outcome :=
  if needsPrivilege then privileged s run else run s

/-- Past a privilege check (R115) a second one does nothing. -/
theorem checked_of_passed {p : Bool} {run : State → Outcome} {s : State} (h : (p && !getFlag .s s.sr) = false) :
    checked p run s = run s := by
  cases p with
  | false => rfl
  | true => exact privileged_supervisor (by simpa using h)

/-- What `cycle` finds under an opcode, its operation behind a second privilege check. -/
def recheck (found : Descriptor × (Word → State → Outcome)) : Descriptor × (Word → State → Outcome) :=
  (found.1, fun w => checked found.1.needsPrivilege (found.2 w))

/-! The fetch leaves SR. -/

theorem fetchByte_after_sr (c : Config) (s : State) : (fetchByte c s).after.sr = s.sr := by
  rcases fetchByte_cases c s with ⟨b, -, h⟩ | ⟨k, -, h⟩ <;> rw [h] <;> rfl

/-- A fetch of two bytes, each latched as it arrives, leaves SR when the latches do. -/
theorem fetchTwo_after_sr (c : Config) (s : State) {latchHigh latchLow : Byte → State → State}
    (hh : ∀ b t, (latchHigh b t).sr = t.sr) (hl : ∀ b t, (latchLow b t).sr = t.sr) :
    ((fetchByte c s).andThen fun h t =>
      (fetchByte c (latchHigh h t)).andThen fun l u => .ok (wordOf h l) (latchLow l u)).after.sr = s.sr :=
  Access.after_andThen (R := (·.sr = s.sr)) (fetchByte_after_sr c s) fun h t ht =>
    Access.after_andThen (R := (·.sr = s.sr)) (((fetchByte_after_sr c _).trans (hh h t)).trans ht) fun l u hu =>
      (hl l u).trans hu

theorem fetchOperand_after_sr (c : Config) (mode : AddrMode) (s : State) : (fetchOperand c mode s).after.sr = s.sr := by
  cases mode with
  | imp => rfl
  | imm1 => exact Access.after_andThen (R := (·.sr = s.sr)) (fetchByte_after_sr c s) fun _ _ ht => ht
  | imm2 => exact fetchTwo_after_sr c s (latchHigh := State.setImh) (fun _ _ => rfl) fun _ _ => rfl
  | abs | absi | absj | ind =>
    exact fetchTwo_after_sr c s (latchHigh := State.setEmh) (fun _ _ => rfl) fun _ _ => rfl

/-- In a cycle a second privilege check repeats the first: only the fetch, which leaves SR, stands between them. -/
theorem cycle_recheck (c : Config) (find : Byte → Option (Descriptor × (Word → State → Outcome))) (s : State) :
    cycle c (fun op => (find op).map recheck) s = cycle c find s := by
  unfold cycle
  cases s.run with
  | halted => rfl
  | faulted => rfl
  | running =>
    cases fetchByte c s with
    | err k t => rfl
    | ok op t =>
      dsimp only
      cases find op with
      | none => rfl
      | some found =>
        obtain ⟨d, run⟩ := found
        dsimp only [Option.map_some, recheck]
        split
        · rfl
        · next hpass =>
          have hsr := fetchOperand_after_sr c d.mode ((t.setIr op).setCur (some d.mnemonic))
          cases ho : fetchOperand c d.mode ((t.setIr op).setCur (some d.mnemonic)) with
          | err k u => rfl
          | ok w u =>
            rw [ho] at hsr
            replace hsr : u.sr = ((t.setIr op).setCur (some d.mnemonic)).sr := hsr
            exact checked_of_passed (by rw [hsr]; simpa using hpass)

/-- Each row of the reference table means the operation of its (mnemonic, mode) pair behind a second privilege check
(R97, R125): the two are the same term once the row is known. -/
theorem operationOf_eq_recheck {e : Entry} (he : e ∈ refEntries) :
    operationOf e = recheck (e.desc, operate Config.reference e.desc) := by
  simp only [refEntries, List.mem_append] at he
  rcases he with (((((((hsystem | hload) | hstore) | htransfer) | haluA) | haluB) | hindex) | hstack) | hcontrol
  · fin_cases hsystem <;> rfl
  · fin_cases hload <;> rfl
  · fin_cases hstore <;> rfl
  · fin_cases htransfer <;> rfl
  · fin_cases haluA <;> rfl
  · fin_cases haluB <;> rfl
  · fin_cases hindex <;> rfl
  · fin_cases hstack <;> rfl
  · fin_cases hcontrol <;> rfl

/-- Under every opcode the reference machine finds what the open machine finds, behind a second privilege check. -/
theorem findEntry_map_operationOf (op : Byte) :
    (findEntry op).map operationOf =
      ((refItab.lookup op).map fun d => (d, operate Config.reference d)).map recheck := by
  rw [refItab_lookup]
  cases he : findEntry op with
  | none => rfl
  | some e => exact congrArg some (operationOf_eq_recheck (findEntry_mem he).1)

/-- Settles O20: the reference step is the open step with its second privilege checks, which a cycle does not see. -/
theorem referenceStepIsTheGeneralStep : Obligations.ReferenceStepIsTheGeneralStep := by
  intro s
  calc stepWith Config.reference refItab s
      = cycle Config.reference (fun op => (refItab.lookup op).map fun d => (d, operate Config.reference d)) s := rfl
    _ = cycle Config.reference
          (fun op => ((refItab.lookup op).map fun d => (d, operate Config.reference d)).map recheck) s :=
        (cycle_recheck _ _ s).symm
    _ = step s := by simp only [step, findEntry_map_operationOf]

end Sys2Proof.Machine
end

section
/-! PROOF of O12, O13, O32 and O33. The invariant looks at SR, memory and the framebuffer alone, so of the updates a step is
made of only the writes of SR and the bus writes can touch it; each of those keeps its part. -/

namespace Sys2Proof.Machine

/-- A property of SR, memory and the peripheral alone is closed under steps once the SR writes and the bus writes keep it. -/
theorem StepClosed.of_status_memory_video {c : Config} {P : Byte → Memory → Video → Prop}
    (hsr : ∀ s v, StatusWrite s v → P s.sr s.mem s.video → P v s.mem s.video)
    (hwrite : ∀ s t a b, busWrite c s a b = .ok t → P s.sr s.mem s.video → P t.sr t.mem t.video) :
    StepClosed c fun s => P s.sr s.mem s.video where
  pc _ _ h := h
  sp _ _ h := h
  a _ _ h := h
  b _ _ h := h
  i _ _ h := h
  j _ _ h := h
  dr _ _ h := h
  sr := hsr
  ir _ _ h := h
  emh _ _ h := h
  eml _ _ h := h
  imh _ _ h := h
  iml _ _ h := h
  ar _ _ h := h
  halt _ _ h := h
  fault _ h := h
  cur _ _ h := h
  result _ _ h := h
  write := hwrite

/-! The Register Bank. -/

/-- The registers that fetch, address resolution, operand reads, pushes, pops and bus writes leave. -/
structure Bank where
  a : Word
  b : Word
  i : Word
  j : Word
  dr : Word
  sr : Byte

def State.bank (s : State) : Bank := ⟨s.a, s.b, s.i, s.j, s.dr, s.sr⟩

/-- A bus write changes memory or the peripheral alone (R61). -/
theorem busWrite_bank {c : Config} {s t : State} {a : Word} {b : Byte} (h : busWrite c s a b = .ok t) :
    t.bank = s.bank := by
  rcases busWrite_cases h with ⟨-, rfl⟩ | ⟨_, _, -, -, rfl⟩ <;> rfl

/-! The reserved bit (R19). -/

/-- Every byte an instruction can write over a valid SR has the reserved bit. -/
theorem StatusWrite.statusValid {s : State} {v : Byte} (h : StatusWrite s v) (hs : StatusValid s.sr) : StatusValid v := by
  unfold StatusValid at hs ⊢
  cases h with
  | alu op a b => rw [AluOp.reservedBit_status, hs]
  | flag f b _ => rw [reservedBit_setFlag, hs]
  | system f b _ => rw [reservedBit_setFlag, hs]
  | whole b _ => exact reservedBit_statusOf b

/-- No update of a step clears the reserved bit. -/
theorem statusValid_closed (c : Config) : StepClosed c fun s => StatusValid s.sr :=
  .of_status_memory_video (P := fun sr _ _ => StatusValid sr) (fun _ _ hw hs => hw.statusValid hs)
    fun s t _ _ hw hs => by
      have hsr : t.sr = s.sr := congrArg Bank.sr (busWrite_bank hw)
      rwa [hsr]

/-! Memory (R31). -/

/-- No address of a RAM-like region belongs to the video port (R50). -/
theorem portMode_of_ramLike {c : Config} {a : Nat} (h : regionOf c a = .ram ∨ regionOf c a = .cartridge) :
    portMode c a = none := by
  unfold regionOf at h
  cases hp : portMode c a with
  | none => rfl
  | some mode =>
    rw [hp] at h
    split at h
    · simp at h
    · split at h <;> simp at h

theorem MemoryValid.write {c : Config} {m : Memory} (hm : MemoryValid c m) {a : Nat} (ha : a < 65536)
    (hp : portMode c a = none) (b : Byte) : MemoryValid c (m.write a b) := by
  obtain ⟨hwf, hbelow, hport⟩ := hm
  refine ⟨Memory.wf_write hwf a b, Memory.below_write hbelow ha b, fun x v hx => ?_⟩
  rcases Memory.mem_write hx with hold | hnew
  · exact hport x v hold
  · cases hnew
    exact hp

/-! The framebuffer (R32). -/

/-- A video command leaves the framebuffer canonical and inside the raster: plot checks its index against the raster, clear
writes the raster's cells, and no other command writes a cell. -/
theorem videoWrite_framebufferValid {c : Config} {mode : VideoMode} {b : Byte} {v w : Video}
    (h : videoWrite c mode b v = .ok w) (hv : FramebufferValid c v.fb) : FramebufferValid c w.fb := by
  obtain ⟨hwf, hbelow⟩ := hv
  rcases videoWrite_cases h with ⟨i, hi, rfl⟩ | rfl | rfl | rfl | rfl | rfl | rfl | rfl
  · exact ⟨Memory.wf_write hwf i v.d1, Memory.below_write hbelow hi v.d1⟩
  · exact ⟨Memory.wf_filled _ _, Memory.below_filled _ _⟩
  all_goals exact ⟨hwf, hbelow⟩

/-! The invariant. -/

theorem busWrite_valid {c : Config} {s t : State} {a : Word} {b : Byte} (h : busWrite c s a b = .ok t)
    (hs : s.Valid c) : t.Valid c := by
  obtain ⟨hsr, hmem, hfb⟩ := hs
  rcases busWrite_cases h with ⟨hregion, rfl⟩ | ⟨mode, v, -, hvideo, rfl⟩
  · exact ⟨hsr, hmem.write a.isLt (portMode_of_ramLike hregion) b, hfb⟩
  · exact ⟨hsr, hmem, videoWrite_framebufferValid hvideo hfb⟩

/-- Every update of a step keeps the invariant, in any configuration. -/
theorem valid_closed (c : Config) : StepClosed c (State.Valid c) :=
  .of_status_memory_video (P := fun sr mem video => StatusValid sr ∧ MemoryValid c mem ∧ FramebufferValid c video.fb)
    (fun _ _ hw ⟨hsr, hmem, hfb⟩ => ⟨hw.statusValid hsr, hmem, hfb⟩) fun _ _ _ _ hw hs => busWrite_valid hw hs

/-- Settles O12: a step is a chain of updates that each keep the invariant. -/
theorem everyStepKeepsValid : Obligations.EveryStepKeepsValid := fun _ t hs ht =>
  step_closed (valid_closed Config.reference) hs t ht

theorem memoryValid_nil (c : Config) : MemoryValid c [] := ⟨rfl, rfl, fun _ _ h => absurd h List.not_mem_nil⟩

theorem framebufferValid_nil (c : Config) : FramebufferValid c [] := ⟨rfl, rfl⟩

theorem reset_valid : State.reset.Valid Config.reference :=
  ⟨by unfold StatusValid; decide, memoryValid_nil _, framebufferValid_nil _⟩

/-- Settles O13: `State.reset` is a literal; its contents are empty, so every byte and cell reads as unlisted. -/
theorem resetStateIsValid : Obligations.ResetStateIsValid :=
  ⟨reset_valid, rfl, rfl, rfl, rfl, rfl, rfl, rfl, rfl, rfl, rfl, rfl, rfl, rfl, rfl, rfl, rfl, rfl, Memory.read_nil, rfl,
    Memory.read_nil, rfl, rfl, rfl, rfl⟩

/-- Settles O32: reading a flag is reading its bit; a flag write is read back by `getFlag_setFlag_self` at its own flag and
by `getFlag_setFlag_other` at the others. -/
theorem statusRegisterLayout : Obligations.StatusRegisterLayout := by
  refine ⟨fun sr => ⟨rfl, rfl, rfl, rfl, rfl, rfl, rfl, rfl⟩, fun f g v sr => ?_, reservedBit_setFlag,
    fun v => ⟨reservedBit_statusOf v, fun f => getFlag_statusOf f v⟩⟩
  split
  · next hgf => rw [hgf, getFlag_setFlag_self]
  · next hgf => exact getFlag_setFlag_other f g hgf v sr

/-- Settles O33: the half register accesses are the byte cuts of R15 by definition. -/
theorem halfRegisterRule : Obligations.HalfRegisterRule := fun _ _ =>
  ⟨rfl, rfl, rfl, rfl, rfl, rfl, rfl, rfl, rfl, rfl, fun _ => ⟨rfl, rfl⟩⟩

end Sys2Proof.Machine
end

section
/-! PROOF of O24. Where the images stand after setup: `boot` accepts only disjoint regions and images of their regions'
lengths (R5, R56), so each image reads back at its region and none reaches RAM, another image or the video port. -/

namespace Sys2Proof.Machine

/-! An image in memory. -/

theorem Memory.read_place_inside {m : Memory} (hm : m.wf = true) {a k : Nat} {bs : List Byte} {b : Byte}
    (hb : bs[k]? = some b) : (m.place a bs).read (a + k) = b := by
  obtain ⟨hk, hget⟩ := List.getElem?_eq_some_iff.1 hb
  rw [Memory.read_place hm, dif_pos (by omega), ← hget]
  simp only [Nat.add_sub_cancel_left]

theorem Memory.read_place_outside {m : Memory} (hm : m.wf = true) {a x : Nat} {bs : List Byte}
    (hx : x < a ∨ a + bs.length ≤ x) : (m.place a bs).read x = m.read x := by
  rw [Memory.read_place hm, dif_neg (by omega)]

/-! The constraints of a configuration (R5) and the images (R55, R56) as inequalities. -/

/-- Two inclusive ranges, one wholly before the other. -/
theorem rangesDisjoint_iff {lo hi lo' hi' : Nat} : rangesDisjoint lo hi lo' hi' = true ↔ hi < lo' ∨ hi' < lo := by
  simp [rangesDisjoint]

theorem rangeFits_iff {lo hi : Nat} : rangeFits lo hi = true ↔ lo ≤ hi ∧ hi ≤ 0xFFFF := by
  simp [rangeFits]

/-- What `Config.wellFormed` says of the regions that images fill, and of the port. -/
structure RegionsApart (c : Config) : Prop where
  rom : c.romLo ≤ c.romHi ∧ c.romHi ≤ 0xFFFF
  char : c.charLo ≤ c.charHi ∧ c.charHi ≤ 0xFFFF
  cart : c.cartLo ≤ c.cartHi ∧ c.cartHi ≤ 0xFFFF
  rom_char : c.romHi < c.charLo ∨ c.charHi < c.romLo
  rom_cart : c.romHi < c.cartLo ∨ c.cartHi < c.romLo
  rom_video : c.romHi < c.videoBase ∨ c.videoBase + 8 < c.romLo
  char_cart : c.charHi < c.cartLo ∨ c.cartHi < c.charLo
  char_video : c.charHi < c.videoBase ∨ c.videoBase + 8 < c.charLo
  cart_video : c.cartHi < c.videoBase ∨ c.videoBase + 8 < c.cartLo

theorem regionsApart_of_wellFormed {c : Config} (h : c.wellFormed = true) : RegionsApart c := by
  simp only [Config.wellFormed, Bool.and_eq_true, rangeFits_iff, rangesDisjoint_iff, Config.videoLast,
    and_assoc] at h
  obtain ⟨romLe, romTop, charLe, charTop, cartLe, cartTop, -, -, romChar, romCart, romVideo, charCart, charVideo, cartVideo,
    -⟩ := h
  exact ⟨⟨romLe, romTop⟩, ⟨charLe, charTop⟩, ⟨cartLe, cartTop⟩, romChar, romCart, romVideo, charCart, charVideo, cartVideo⟩

/-- The bytes the cartridge slot contributes: none without a cartridge (R55). -/
def PowerOn.installedCart (c : Config) (p : PowerOn) : List Byte := if c.cartPresent then p.cartImage else []

/-- Setup is the three placements in a row, the cartridge's an empty one when there is none. -/
theorem PowerOn.memory_eq_place (c : Config) (p : PowerOn) :
    p.memory c =
      ((p.ramInit.place c.romLo p.romImage).place c.charLo p.charImage).place c.cartLo (p.installedCart c) := by
  unfold PowerOn.memory PowerOn.installedCart
  split <;> rfl

/-- What `PowerOn.imagesFit` says: the images end where their regions do. -/
structure PowerOn.ImageEnds (c : Config) (p : PowerOn) : Prop where
  rom : c.romLo + p.romImage.length = c.romHi + 1
  char : c.charLo + p.charImage.length = c.charHi + 1
  cart : c.cartLo + (p.installedCart c).length = if c.cartPresent then c.cartHi + 1 else c.cartLo

theorem PowerOn.imageEnds_of_imagesFit {c : Config} {p : PowerOn} (hc : RegionsApart c) (h : p.imagesFit c = true) :
    p.ImageEnds c := by
  obtain ⟨hrom, -⟩ := hc.rom
  obtain ⟨hchar, -⟩ := hc.char
  obtain ⟨hcart, -⟩ := hc.cart
  simp only [PowerOn.imagesFit, rangeSize, Bool.and_eq_true, Bool.or_eq_true, Bool.not_eq_true', beq_iff_eq] at h
  obtain ⟨⟨hromLength, hcharLength⟩, hcartLength⟩ := h
  refine ⟨by omega, by omega, ?_⟩
  unfold PowerOn.installedCart
  cases hp : c.cartPresent with
  | false => rfl
  | true =>
    have hlength := hcartLength.resolve_left (by simp [hp])
    simp only [if_pos]
    omega

/-- What `PowerOn.contentsFit` says. -/
structure PowerOn.ContentsValid (c : Config) (p : PowerOn) : Prop where
  ramWf : p.ramInit.wf = true
  ramLike : ∀ cell ∈ p.ramInit, isRamLike c cell.1 = true
  framebuffer : FramebufferValid c p.video.fb

theorem PowerOn.contentsValid_of_contentsFit {c : Config} {p : PowerOn} (h : p.contentsFit c = true) :
    p.ContentsValid c := by
  simp only [PowerOn.contentsFit, Bool.and_eq_true, List.all_eq_true] at h
  obtain ⟨⟨⟨hwf, hram⟩, hfb⟩, hbelow⟩ := h
  exact ⟨hwf, hram, hfb, hbelow⟩

/-- A RAM-like index is an address with no video mode. -/
theorem isRamLike_address {c : Config} {a : Nat} (h : isRamLike c a = true) : a < 65536 ∧ portMode c a = none := by
  unfold isRamLike at h
  split at h
  · next hr => exact ⟨of_decide_eq_true h, portMode_of_ramLike (.inl hr)⟩
  · next hr => exact ⟨of_decide_eq_true h, portMode_of_ramLike (.inr hr)⟩
  all_goals cases h

/-- Where region decoding answers RAM or cartridge: outside ROM and character map, and inside or outside the cartridge
range as the answer says (R51). -/
theorem regionOf_ramLike_bounds {c : Config} {a : Nat} (h : regionOf c a = .ram ∨ regionOf c a = .cartridge) :
    (a < c.romLo ∨ c.romHi < a) ∧ (a < c.charLo ∨ c.charHi < a) ∧
      (regionOf c a = .ram → a < c.cartLo ∨ c.cartHi < a) := by
  have hp := portMode_of_ramLike h
  unfold regionOf at h ⊢
  rw [hp] at h ⊢
  by_cases hrom : inRange c.romLo c.romHi a = true
  · simp [hrom] at h
  · by_cases hchar : inRange c.charLo c.charHi a = true
    · simp [hrom, hchar] at h
    · by_cases hcart : inRange c.cartLo c.cartHi a = true
      · simp only [hrom, hchar, hcart]
        rw [inRange_iff] at hrom hchar
        exact ⟨by omega, by omega, by simp⟩
      · rw [inRange_iff] at hrom hchar hcart
        exact ⟨by omega, by omega, fun _ => by omega⟩

/-! Memory after setup. -/

section setup
variable {c : Config} {p : PowerOn}

theorem PowerOn.read_memory_rom (hc : RegionsApart c) (hp : p.ImageEnds c) (hram : p.ramInit.wf = true) {k : Nat} {b : Byte}
    (hb : p.romImage[k]? = some b) : (p.memory c).read (c.romLo + k) = b := by
  obtain ⟨hk, -⟩ := List.getElem?_eq_some_iff.1 hb
  have hrom := hp.rom
  have hchar := hp.char
  have hcart := hp.cart
  have hromChar := hc.rom_char
  have hromCart := hc.rom_cart
  have hwfRom := Memory.wf_place hram c.romLo p.romImage
  have hwfChar := Memory.wf_place hwfRom c.charLo p.charImage
  rw [PowerOn.memory_eq_place, Memory.read_place_outside hwfChar (by split at hcart <;> omega),
    Memory.read_place_outside hwfRom (by omega), Memory.read_place_inside hram hb]

theorem PowerOn.read_memory_char (hc : RegionsApart c) (hp : p.ImageEnds c) (hram : p.ramInit.wf = true) {k : Nat} {b : Byte}
    (hb : p.charImage[k]? = some b) : (p.memory c).read (c.charLo + k) = b := by
  obtain ⟨hk, -⟩ := List.getElem?_eq_some_iff.1 hb
  have hchar := hp.char
  have hcart := hp.cart
  have hcharCart := hc.char_cart
  have hwfRom := Memory.wf_place hram c.romLo p.romImage
  have hwfChar := Memory.wf_place hwfRom c.charLo p.charImage
  rw [PowerOn.memory_eq_place, Memory.read_place_outside hwfChar (by split at hcart <;> omega),
    Memory.read_place_inside hwfRom hb]

theorem PowerOn.read_memory_cart (hram : p.ramInit.wf = true) (hpresent : c.cartPresent = true) {k : Nat} {b : Byte}
    (hb : p.cartImage[k]? = some b) : (p.memory c).read (c.cartLo + k) = b := by
  have hinstalled : p.installedCart c = p.cartImage := by rw [PowerOn.installedCart, if_pos hpresent]
  rw [PowerOn.memory_eq_place, hinstalled]
  exact Memory.read_place_inside (Memory.wf_place (Memory.wf_place hram _ _) _ _) hb

/-- An address that no image covers holds its power-on byte. -/
theorem PowerOn.read_memory_outside (hp : p.ImageEnds c) (hram : p.ramInit.wf = true) {a : Nat}
    (hrom : a < c.romLo ∨ c.romHi < a) (hchar : a < c.charLo ∨ c.charHi < a)
    (hcart : c.cartPresent = true → a < c.cartLo ∨ c.cartHi < a) : (p.memory c).read a = p.ramInit.read a := by
  have hromEnd := hp.rom
  have hcharEnd := hp.char
  have hcartEnd := hp.cart
  have hwfRom := Memory.wf_place hram c.romLo p.romImage
  have hwfChar := Memory.wf_place hwfRom c.charLo p.charImage
  have houtside : a < c.cartLo ∨ c.cartLo + (p.installedCart c).length ≤ a := by
    split at hcartEnd
    · next h => have := hcart h; omega
    · omega
  rw [PowerOn.memory_eq_place, Memory.read_place_outside hwfChar houtside,
    Memory.read_place_outside hwfRom (by omega), Memory.read_place_outside hram (by omega)]

/-- Every byte that memory lists after setup is a RAM-like one or stands in an image's region; either way at an address
outside the port. -/
theorem PowerOn.memory_valid (hc : RegionsApart c) (hp : p.ImageEnds c) (hcontents : p.ContentsValid c) :
    MemoryValid c (p.memory c) := by
  have haddress : ∀ cell ∈ p.memory c, cell.1 < 65536 ∧ portMode c cell.1 = none := by
    intro cell hcell
    rw [PowerOn.memory_eq_place] at hcell
    rcases Memory.mem_place hcell with hcell | hcart
    · rcases Memory.mem_place hcell with hcell | hchar
      · rcases Memory.mem_place hcell with hram | hrom
        · exact isRamLike_address (hcontents.ramLike cell hram)
        · have := hp.rom; have := hc.rom; have := hc.rom_video
          exact ⟨by omega, portMode_none (by omega)⟩
      · have := hp.char; have := hc.char; have := hc.char_video
        exact ⟨by omega, portMode_none (by omega)⟩
    · have hend := hp.cart
      have := hc.cart; have := hc.cart_video
      have hlast : cell.1 ≤ c.cartHi := by split at hend <;> omega
      exact ⟨by omega, portMode_none (by omega)⟩
  refine ⟨?_, ?_, fun a b hab => (haddress (a, b) hab).2⟩
  · rw [PowerOn.memory_eq_place]
    exact Memory.wf_place (Memory.wf_place (Memory.wf_place hcontents.ramWf _ _) _ _) _ _
  · simp only [Memory.below, List.all_eq_true, decide_eq_true_eq]
    exact fun cell hcell => (haddress cell hcell).1

end setup

/-- Every flag before the first reset: I and D as given, the others clear (R41). -/
theorem PowerOn.getFlag_status (p : PowerOn) (f : Flag) :
    getFlag f p.status = match f with
      | .i => p.flagI
      | .d => p.flagD
      | .s | .z | .c | .n | .o => false := by
  unfold PowerOn.status
  cases f with
  | i => exact getFlag_setFlag_self .i _ _
  | d => rw [getFlag_setFlag_other .i .d (by decide), getFlag_setFlag_self]
  | n | o | s | z | c =>
    rw [getFlag_setFlag_other .i _ (by decide), getFlag_setFlag_other .d _ (by decide)]
    rfl

/-- What `boot` accepts, and the state it gives. -/
theorem boot_eq_ok {c : Config} {p : PowerOn} {s : State} (h : boot c p = .ok s) :
    c.wellFormed = true ∧ p.imagesFit c = true ∧ p.contentsFit c = true ∧
      s = (((State.reset.setSr p.status).setMem (p.memory c)).setVideo p.video).hostReset c := by
  unfold boot at h
  split at h
  · cases h
  · next hwf =>
    split at h
    · cases h
    · next himages =>
      split at h
      · cases h
      · next hcontents => exact ⟨by simpa using hwf, by simpa using himages, by simpa using hcontents, by cases h; rfl⟩

/-- Settles O24: the registers by the laws of `hostReset`, the contents by the laws of setup. -/
theorem bootGivesResetState : Obligations.BootGivesResetState := by
  intro c p s h
  obtain ⟨hwf, himages, hcontents, rfl⟩ := boot_eq_ok h
  have hc := regionsApart_of_wellFormed hwf
  have hp := PowerOn.imageEnds_of_imagesFit hc himages
  have hv := PowerOn.contentsValid_of_contentsFit hcontents
  refine ⟨rfl, rfl, rfl, rfl, rfl, rfl, rfl, rfl, rfl, rfl, rfl, rfl, rfl, rfl, rfl, rfl, fun f => ?flags,
    fun k b hb => PowerOn.read_memory_rom hc hp hv.ramWf hb, fun k b hb => PowerOn.read_memory_char hc hp hv.ramWf hb,
    fun hpresent k b hb => PowerOn.read_memory_cart hv.ramWf hpresent hb, fun a ha => ?ram,
    fun habsent a ha => ?cartridge, ?valid⟩
  case flags =>
    refine (getFlag_resetStatus f p.status).trans ?_
    cases f with
    | i | d => exact PowerOn.getFlag_status p _
    | n | o | s | z | c => rfl
  case ram =>
    obtain ⟨hrom, hchar, hcart⟩ := regionOf_ramLike_bounds (.inl ha)
    exact PowerOn.read_memory_outside hp hv.ramWf hrom hchar fun _ => hcart ha
  case cartridge =>
    obtain ⟨hrom, hchar, -⟩ := regionOf_ramLike_bounds (.inr ha)
    exact PowerOn.read_memory_outside hp hv.ramWf hrom hchar fun hpresent => by simp [habsent] at hpresent
  case valid =>
    exact ⟨reservedBit_resetStatus p.status, PowerOn.memory_valid hc hp hv, hv.framebuffer⟩

end Sys2Proof.Machine
end

section
/-! PROOF of O16 and O18. SR and DR are written by an instruction's last update alone: fetch, latches, address resolution,
operand reads, pushes and pops leave the Register Bank (`bank_eq` lemmas). So one lemma per shared meaning says what it does
to SR and DR, and one case split over the instructions collects them (`exec_frame`). -/

namespace Sys2Proof.Machine

/-! What every part of an instruction but its last update leaves. -/

/-- A part of an instruction, started in a state with bank `k`, leaves the bank. -/
theorem bank_andThen {α β : Type} {k : Bank} {p : Access α} {rest : α → State → Access β} (hp : p.after.bank = k)
    (hrest : ∀ v s, s.bank = k → (rest v s).after.bank = k) : (p.andThen rest).after.bank = k :=
  Access.after_andThen (R := fun s => s.bank = k) hp hrest

section parts
variable {c : Config} {k : Bank} {s : State}

theorem readByte_bank (a : Word) (hs : s.bank = k) : (readByte c a s).after.bank = k :=
  StepClosed.readByte (R := fun s => s.bank = k) a hs

theorem readWord_bank (a : Word) (hs : s.bank = k) : (readWord c a s).after.bank = k :=
  StepClosed.readWord (R := fun s => s.bank = k) a hs

theorem writeByte_bank (a : Word) (b : Byte) (hs : s.bank = k) : (writeByte c a b s).after.bank = k := by
  rcases writeByte_cases c a b s with ⟨t, ht, h⟩ | ⟨e, -, h⟩ <;> rw [h]
  · exact (busWrite_bank ht).trans hs
  · exact hs

theorem writeWord_bank (a v : Word) (hs : s.bank = k) : (writeWord c a v s).after.bank = k :=
  bank_andThen (writeByte_bank a _ hs) fun _ _ h => writeByte_bank _ _ h

theorem push8_bank (b : Byte) (hs : s.bank = k) : (push8 c b s).after.bank = k :=
  bank_andThen (writeByte_bank _ b hs) fun _ _ h => h

theorem push16_bank (v : Word) (hs : s.bank = k) : (push16 c v s).after.bank = k :=
  bank_andThen (push8_bank _ hs) fun _ _ h => push8_bank _ h

theorem pop8_bank (hs : s.bank = k) : (pop8 c s).after.bank = k :=
  bank_andThen (readByte_bank _ hs) fun _ _ h => h

theorem pop16_bank (hs : s.bank = k) : (pop16 c s).after.bank = k :=
  bank_andThen (readByte_bank _ hs) fun _ _ h => bank_andThen (readByte_bank _ h) fun _ _ h => h

theorem resolve_bank (mode : MemMode) (w : Word) (hs : s.bank = k) : (resolve c mode w s).after.bank = k := by
  rcases resolve_cases c mode w s with ⟨ea, h⟩ | ⟨e, -, h⟩ <;> rw [h] <;> exact hs

theorem operand8_bank (src : Src8) (hs : s.bank = k) : (operand8 c src s).after.bank = k := by
  cases src with
  | imm b => exact hs
  | mem mode w => exact bank_andThen (resolve_bank mode w hs) fun _ _ h => readByte_bank _ h

theorem operand16_bank (src : Src16) (hs : s.bank = k) : (operand16 c src s).after.bank = k := by
  cases src with
  | imm w => exact hs
  | mem mode w => exact bank_andThen (resolve_bank mode w hs) fun _ _ h => readWord_bank _ h

theorem fetchByte_bank (hs : s.bank = k) : (fetchByte c s).after.bank = k :=
  bank_andThen (readByte_bank _ hs) fun _ _ h => h

theorem fetchOperand_bank (mode : AddrMode) (hs : s.bank = k) : (fetchOperand c mode s).after.bank = k := by
  cases mode with
  | imp => exact hs
  | imm1 => exact bank_andThen (fetchByte_bank hs) fun _ _ h => h
  | imm2 | abs | absi | absj | ind =>
    exact bank_andThen (fetchByte_bank hs) fun _ _ h => bank_andThen (fetchByte_bank h) fun _ _ h => h

end parts

/-! What an instruction's last update leaves of SR and DR. -/

/-- `y` is `x` but for some of the flags in `fs`; the reserved bit is as it was. -/
def LeavesAllBut (fs : List Flag) (x y : Byte) : Prop :=
  (∀ f, f ∉ fs → getFlag f y = getFlag f x) ∧ reservedBit y = reservedBit x

theorem leavesAllBut_refl (fs : List Flag) (x : Byte) : LeavesAllBut fs x x := ⟨fun _ _ => rfl, rfl⟩

theorem eq_of_leavesAllBut_nil {x y : Byte} (h : LeavesAllBut [] x y) : y = x :=
  status_ext (fun f => h.1 f List.not_mem_nil) h.2

theorem leavesAllBut_setFlag (f : Flag) (v : Bool) (x : Byte) : LeavesAllBut [f] x (setFlag f v x) :=
  ⟨fun g hg => getFlag_setFlag_other f g (by simpa using hg) v x, reservedBit_setFlag f v x⟩

/-- The flags an operation of the Register Bank copies (R197). -/
def AluOp.flags : AluOp → List Flag
  | .add | .sub => [.c, .o, .z, .n]
  | .and | .or => [.z, .n]

theorem AluOp.leavesAllBut_status {w : Nat} (op : AluOp) (a b : BitVec w) (x : Byte) :
    LeavesAllBut op.flags x (op.status a b x) := by
  refine ⟨fun f hf => ?_, op.reservedBit_status a b x⟩
  cases op with
  | add | sub => cases f <;> simp [AluOp.flags, AluOp.status, getFlag_setCONZ] at hf ⊢
  | and | or => cases f <;> simp [AluOp.flags, AluOp.status, getFlag_setZN] at hf ⊢

/-- From `s` to `t` only flags of `fs` have changed in SR, and DR is as it was. -/
def Keeps (fs : List Flag) (s t : State) : Prop := LeavesAllBut fs s.sr t.sr ∧ t.dr = s.dr

theorem keeps_of_bank {fs : List Flag} {s t : State} (h : t.bank = s.bank) : Keeps fs s t := by
  have hsr : t.sr = s.sr := congrArg Bank.sr h
  exact ⟨hsr ▸ leavesAllBut_refl fs s.sr, congrArg Bank.dr h⟩

/-- A register write but to DR, in a state that a part of the instruction from `s` has reached. -/
theorem keeps_writeReg16 {fs : List Flag} {s u : State} {r : Reg16} (hr : r ≠ .dr) (v : Word) (h : u.bank = s.bank) :
    Keeps fs s (u.writeReg16 r v) := by
  obtain ⟨hsr, hdr⟩ := keeps_of_bank (fs := fs) h
  exact ⟨by rwa [State.writeReg16_sr], (State.readReg16_writeReg16_other r v u .dr hr.symm).trans hdr⟩

theorem keeps_writeReg8 {fs : List Flag} {s u : State} (r : Reg8) (v : Byte) (h : u.bank = s.bank) :
    Keeps fs s (u.writeReg8 r v) := by
  obtain ⟨hsr, hdr⟩ := keeps_of_bank (fs := fs) h
  exact ⟨by rwa [State.writeReg8_sr], by rwa [State.writeReg8_dr_eq]⟩

theorem finish_keeps {fs : List Flag} {s : State} {p : Access Unit} (m : Mnemonic) (h : Keeps fs s p.after) :
    Ends (Keeps fs s) (finish m p) := by
  cases p <;> exact ends_next h

/-- The end of an instruction that reads an operand first, or pops one: a failing part leaves the bank. -/
theorem finish_andThen_keeps {α : Type} {fs : List Flag} {s : State} {p : Access α} {rest : α → State → Access Unit}
    (m : Mnemonic) (hp : p.after.bank = s.bank) (hrest : ∀ v u, u.bank = s.bank → Keeps fs s (rest v u).after) :
    Ends (Keeps fs s) (finish m (p.andThen rest)) := by
  refine finish_keeps m ?_
  cases p with
  | ok v u => exact hrest v u hp
  | err k u => exact keeps_of_bank hp

/-- A privileged instruction runs its body, or faults and leaves everything but RUN and `result` (R115). -/
theorem privileged_ends {Q : State → Prop} {s : State} {body : State → Outcome} (hbody : Ends Q (body s))
    (hfault : Q ((s.setRun .faulted).setResult (some (.fault .privilegeFault)))) : Ends Q (privileged s body) := by
  unfold privileged
  split
  · exact hbody
  · exact ends_next hfault

theorem privileged_keeps {fs : List Flag} {s : State} {body : State → Outcome} (h : Ends (Keeps fs s) (body s)) :
    Ends (Keeps fs s) (privileged s body) := privileged_ends h (keeps_of_bank rfl)

/-! The meanings. -/

section meanings
variable {c : Config} {m : Mnemonic} {fs : List Flag} {s : State}

theorem load16_keeps {r : Reg16} {src : Src16} (hr : r ≠ .dr) : Ends (Keeps fs s) (load16 c m r src s) :=
  finish_andThen_keeps m (operand16_bank src rfl) fun v _ h => keeps_writeReg16 hr v h

theorem load8_keeps {r : Reg8} {src : Src8} : Ends (Keeps fs s) (load8 c m r src s) :=
  finish_andThen_keeps m (operand8_bank src rfl) fun v _ h => keeps_writeReg8 r v h

theorem store16_keeps {r : Reg16} {mode : MemMode} {w : Word} : Ends (Keeps fs s) (store16 c m r mode w s) :=
  finish_keeps m (keeps_of_bank (bank_andThen (resolve_bank mode w rfl) fun _ _ h => writeWord_bank _ _ h))

theorem store8_keeps {r : Reg8} {mode : MemMode} {w : Word} : Ends (Keeps fs s) (store8 c m r mode w s) :=
  finish_keeps m (keeps_of_bank (bank_andThen (resolve_bank mode w rfl) fun _ _ h => writeByte_bank _ _ h))

theorem transfer_keeps {x y : Reg16} (hy : y ≠ .dr) : Ends (Keeps fs s) (transfer m x y s) :=
  finish_keeps m (keeps_writeReg16 hy _ rfl)

theorem transferFromSr_keeps : Ends (Keeps fs s) (transferFromSr m s) :=
  finish_keeps m (keeps_writeReg8 .al _ rfl)

/-- The last update of an operation: a register that is neither SR nor DR, then the flags. -/
theorem keeps_setSr {op : AluOp} {u : State} {w : Nat} {x y : BitVec w} (hfs : op.flags = fs) (h : Keeps [] s u) :
    Keeps fs s (u.setSr (op.status x y u.sr)) := by
  obtain ⟨hsr, hdr⟩ := h
  rw [eq_of_leavesAllBut_nil hsr, ← hfs]
  exact ⟨op.leavesAllBut_status x y s.sr, hdr⟩

theorem alu16_keeps {op : AluOp} {r : Reg16} {src : Src16} (hr : r ≠ .dr) (hfs : op.flags = fs) :
    Ends (Keeps fs s) (alu16 c m op r src s) :=
  finish_andThen_keeps m (operand16_bank src rfl) fun v u h => by
    have hu := keeps_setSr (x := u.readReg16 r) (y := v) hfs
      (keeps_writeReg16 hr (op.value (u.readReg16 r) v) h)
    rwa [State.writeReg16_sr] at hu

theorem alu8_keeps {op : AluOp} {r : Reg8} {src : Src8} (hfs : op.flags = fs) :
    Ends (Keeps fs s) (alu8 c m op r src s) :=
  finish_andThen_keeps m (operand8_bank src rfl) fun v u h => by
    have hu := keeps_setSr (x := u.readReg8 r) (y := v) hfs (keeps_writeReg8 r (op.value (u.readReg8 r) v) h)
    rwa [State.writeReg8_sr] at hu

theorem indexStep_keeps {op : AluOp} {r : Reg16} (hr : r ≠ .dr) (hfs : op.flags = fs) :
    Ends (Keeps fs s) (indexStep m op r s) := by
  have hu := keeps_setSr (x := s.readReg16 r) (y := 1#16) hfs
    (keeps_writeReg16 hr (op.value (s.readReg16 r) 1#16) (rfl : s.bank = s.bank))
  rw [State.writeReg16_sr] at hu
  exact finish_keeps m hu

theorem push_keeps {r : Reg16} : Ends (Keeps fs s) (push c m r s) :=
  finish_keeps m (keeps_of_bank (push16_bank _ rfl))

theorem pushStatus_keeps : Ends (Keeps fs s) (pushStatus c m s) :=
  finish_keeps m (keeps_of_bank (push8_bank _ rfl))

theorem pop_keeps {r : Reg16} (hr : r ≠ .dr) : Ends (Keeps fs s) (pop c m r s) :=
  finish_andThen_keeps m (pop16_bank rfl) fun v _ h => keeps_writeReg16 hr v h

theorem jump_keeps {cond : Cond} {mode : MemMode} {w : Word} : Ends (Keeps fs s) (jump c m cond mode w s) :=
  finish_andThen_keeps m (resolve_bank mode w rfl) fun _ u h => by
    show Keeps fs s (if cond.holds u.sr then u.setPc u.ar else u)
    split <;> exact keeps_of_bank h

theorem callTo_keeps {mode : MemMode} {w : Word} : Ends (Keeps fs s) (callTo c m mode w s) :=
  finish_keeps m (keeps_of_bank (bank_andThen (resolve_bank mode w rfl) fun _ _ h =>
    bank_andThen (push16_bank _ h) fun _ _ h => h))

theorem returnFrom_keeps : Ends (Keeps fs s) (returnFrom c m s) :=
  finish_keeps m (keeps_of_bank (bank_andThen (pop16_bank rfl) fun _ _ h => h))

theorem writeFlag_keeps {f : Flag} {v : Bool} : Ends (Keeps [f] s) (writeFlag m f v s) :=
  finish_keeps m ⟨leavesAllBut_setFlag f v s.sr, rfl⟩

theorem noOperation_keeps : Ends (Keeps fs s) (noOperation m s) := finish_keeps m (keeps_of_bank rfl)

theorem haltCore_keeps : Ends (Keeps fs s) (haltCore m s) := finish_keeps m (keeps_of_bank rfl)

end meanings

/-! Every instruction. -/

/-- The flags a mnemonic's family writes (R197, 46_flag_system.md); `tasr` and `popsr` write the whole byte. -/
def flagsWritten : Mnemonic → List Flag
  | .clc | .sec => [.c]
  | .clo => [.o]
  | .cld | .sed => [.d]
  | .cli | .sei => [.i]
  | .cls => [.s]
  | .add | .sub | .addh | .addl | .subh | .subl | .addb | .subb | .addbh | .addbl | .subbh | .subbl
  | .ini | .dei | .inj | .dej => [.c, .o, .z, .n]
  | .and | .or | .andl | .orl | .andb | .orb | .andbl | .orbl => [.z, .n]
  | .tasr | .popsr => [.n, .o, .i, .d, .s, .z, .c]
  | _ => []

/-- What an instruction leaves of SR and DR: `tasr` and `popsr` alone write a whole status byte, `tad` alone writes DR. -/
structure Frame (i : Instr) (s t : State) : Prop where
  status : i ≠ .tasr → i ≠ .popsr → LeavesAllBut (flagsWritten i.mnemonic) s.sr t.sr
  data : i ≠ .tad → t.dr = s.dr

theorem frame_of_keeps {i : Instr} {s : State} {o : Outcome} (h : Ends (Keeps (flagsWritten i.mnemonic) s) o) :
    Ends (Frame i s) o := fun t ht => ⟨fun _ _ => (h t ht).1, fun _ => (h t ht).2⟩

theorem exec_tad (s : State) : exec .tad s = .next ((s.setDr s.a).setResult (some (.ok .tad))) := rfl

theorem exec_tasr_dr (s : State) : Ends (fun t => t.dr = s.dr) (exec .tasr s) :=
  privileged_ends (ends_next rfl) rfl

theorem exec_popsr_dr (s : State) : Ends (fun t => t.dr = s.dr) (exec .popsr s) := by
  refine privileged_ends (fun t ht => ?_) rfl
  rcases readByte_cases Config.reference (s.sp - 1#16) s with ⟨b, hb, -⟩ | ⟨k, hk, -⟩
  · rw [popStatus, pop8_ok hb] at ht
    cases ht; rfl
  · rw [popStatus, pop8_err hk] at ht
    cases ht; rfl

/-- Each instruction by the shared meaning it is made of. -/
theorem exec_frame (i : Instr) (s : State) : Ends (Frame i s) (exec i s) := by
  cases i with
  | tad =>
    rw [exec_tad]
    exact ends_next ⟨fun _ _ => leavesAllBut_refl _ s.sr, fun h => absurd rfl h⟩
  | tasr => exact fun t ht => ⟨fun h => absurd rfl h, fun _ => exec_tasr_dr s t ht⟩
  | popsr => exact fun t ht => ⟨fun _ h => absurd rfl h, fun _ => exec_popsr_dr s t ht⟩
  | nop => exact frame_of_keeps noOperation_keeps
  | halt => exact frame_of_keeps (privileged_keeps haltCore_keeps)
  | clc | sec | clo | cld | sed => exact frame_of_keeps writeFlag_keeps
  | cli | sei | cls => exact frame_of_keeps (privileged_keeps writeFlag_keeps)
  | ldaImm2 w | ldbImm2 w | ldiImm2 w | ldjImm2 w | ldspImm2 w =>
    exact frame_of_keeps (load16_keeps (c := Config.reference) (src := .imm w) (by decide))
  | ldaAbs | ldaAbsi | ldaAbsj | ldaInd | ldbAbs | ldiAbs | ldjAbs | ldspAbs =>
    exact frame_of_keeps (load16_keeps (by decide))
  | ldahImm1 b | ldalImm1 b | ldbhImm1 b | ldblImm1 b => exact frame_of_keeps (load8_keeps (c := Config.reference) (src := .imm b))
  | ldahAbs | ldalAbs | ldalAbsi | ldalAbsj | ldalInd | ldbhAbs | ldblAbs => exact frame_of_keeps load8_keeps
  | staAbs | staAbsi | staAbsj | staInd | stbAbs | stiAbs | stjAbs => exact frame_of_keeps store16_keeps
  | stahAbs | stalAbs | stalAbsi | stalAbsj | stalInd | stbhAbs | stblAbs => exact frame_of_keeps store8_keeps
  | tab | tba | tai | tia | taj | tja | tda | tasp | tspa => exact frame_of_keeps (transfer_keeps (by decide))
  | tsra => exact frame_of_keeps transferFromSr_keeps
  | addImm2 w | subImm2 w | andImm2 w | orImm2 w | addbImm2 w | subbImm2 w | andbImm2 w | orbImm2 w =>
    exact frame_of_keeps (alu16_keeps (c := Config.reference) (src := .imm w) (by decide) rfl)
  | addAbs | subAbs | andAbs | orAbs | addbAbs | subbAbs | andbAbs | orbAbs =>
    exact frame_of_keeps (alu16_keeps (by decide) rfl)
  | addhImm1 b | addlImm1 b | subhImm1 b | sublImm1 b | andlImm1 b | orlImm1 b | addbhImm1 b | addblImm1 b | subbhImm1 b
  | subblImm1 b | andblImm1 b | orblImm1 b => exact frame_of_keeps (alu8_keeps (c := Config.reference) (src := .imm b) rfl)
  | addhAbs | addlAbs | subhAbs | sublAbs | andlAbs | orlAbs | addbhAbs | addblAbs | subbhAbs | subblAbs | andblAbs
  | orblAbs => exact frame_of_keeps (alu8_keeps rfl)
  | ini | dei | inj | dej => exact frame_of_keeps (indexStep_keeps (by decide) rfl)
  | psha | pshb => exact frame_of_keeps push_keeps
  | popa | popb => exact frame_of_keeps (pop_keeps (by decide))
  | pshsr => exact frame_of_keeps pushStatus_keeps
  | jmpAbs w | jeqAbs w | jneAbs w | jcsAbs w | jccAbs w | jnsAbs w | jncAbs w | josAbs w | jocAbs w | jltAbs w
  | jgeAbs w => exact frame_of_keeps (jump_keeps (c := Config.reference) (mode := .abs) (w := w))
  | jmpInd w => exact frame_of_keeps (jump_keeps (c := Config.reference) (mode := .ind) (w := w))
  | callAbs => exact frame_of_keeps callTo_keeps
  | ret => exact frame_of_keeps returnFrom_keeps

/-! SR by family (O16). -/

theorem flagsWritten_eq_nil {m : Mnemonic}
    (h : m ∉ [Mnemonic.clc, .sec, .clo, .cld, .sed, .cli, .sei, .cls, .tasr, .popsr,
      .add, .sub, .and, .or, .addh, .addl, .subh, .subl, .andl, .orl,
      .addb, .subb, .andb, .orb, .addbh, .addbl, .subbh, .subbl, .andbl, .orbl, .ini, .dei, .inj, .dej]) :
    flagsWritten m = [] := by
  unfold flagsWritten
  split <;> simp at h ⊢

/-- The flags outside what a family of mnemonics writes are as they were. -/
theorem exec_getFlag {i : Instr} {s t : State} (h : exec i s = .next t) {family : List Mnemonic} {fs : List Flag}
    (hfamily : ∀ m ∈ family, flagsWritten m = fs) (hi : i.mnemonic ∈ family) {f : Flag} (hf : f ∉ fs) :
    getFlag f t.sr = getFlag f s.sr := by
  have hf : f ∉ flagsWritten i.mnemonic := hfamily i.mnemonic hi ▸ hf
  refine ((exec_frame i s t h).status ?_ ?_).1 f hf
  all_goals rintro rfl; exact hf (by cases f <;> decide)

/-- Settles O16: a family leaves the flags outside its `flagsWritten`, and the whole byte when that is empty. -/
theorem statusRegisterWriters : Obligations.StatusRegisterWriters := by
  intro i s t h
  refine ⟨fun hi => ?other, fun hi f hz hn => ?logic, fun hi f hf => ?arithmetic, fun hi f hf => ?carry,
    fun hi f hf => ?overflow, fun hi f hf => ?decimal, fun hi f hf => ?interrupt, fun hi f hf => ?supervisor,
    fun hs => ?reserved⟩
  case other =>
    have hstatus := (exec_frame i s t h).status (by rintro rfl; simp [Instr.mnemonic] at hi)
      (by rintro rfl; simp [Instr.mnemonic] at hi)
    rw [flagsWritten_eq_nil hi] at hstatus
    exact eq_of_leavesAllBut_nil hstatus
  case logic => exact exec_getFlag h (fs := [.z, .n]) (by decide) hi (by simp [hz, hn])
  case arithmetic =>
    have houtside : ∀ f ∈ [Flag.i, .d, .s], f ∉ [Flag.c, .o, .z, .n] := by decide
    exact exec_getFlag h (by decide) hi (houtside f hf)
  case carry => exact exec_getFlag h (fs := [.c]) (by decide) hi (by simpa using hf)
  case overflow => exact exec_getFlag h (fs := [.o]) (by decide) (List.mem_singleton.2 hi) (by simpa using hf)
  case decimal => exact exec_getFlag h (fs := [.d]) (by decide) hi (by simpa using hf)
  case interrupt => exact exec_getFlag h (fs := [.i]) (by decide) hi (by simpa using hf)
  case supervisor => exact exec_getFlag h (fs := [.s]) (by decide) (List.mem_singleton.2 hi) (by simpa using hf)
  case reserved => exact exec_closed (statusValid_closed Config.reference) i hs t h

/-! DR (O18). -/

/-- Everything a cycle can end in: a state with the bank of `s` (stopped, or a fault of the fetch, the lookup or the privilege
check), or the operation found, run in a state with that bank. -/
theorem cycle_ends {c : Config} {find : Byte → Option (Descriptor × (Word → State → Outcome))} {s : State}
    {Q : State → Prop} (hbank : ∀ t, t.bank = s.bank → Q t)
    (hop : ∀ op d run w u, find op = some (d, run) → u.bank = s.bank → Ends Q (run w u)) : Ends Q (cycle c find s) := by
  unfold cycle
  cases s.run with
  | halted => exact ends_next (hbank _ rfl)
  | faulted => exact ends_next (hbank _ rfl)
  | running =>
    have hfetch := fetchByte_bank (c := c) (rfl : s.bank = s.bank)
    cases hb : fetchByte c s with
    | err k t => rw [hb] at hfetch; exact ends_next (hbank _ hfetch)
    | ok op t =>
      rw [hb] at hfetch
      dsimp only
      cases hd : find op with
      | none => exact ends_next (hbank _ hfetch)
      | some found =>
        obtain ⟨d, run⟩ := found
        dsimp only
        split
        · exact ends_next (hbank _ hfetch)
        · have hoperand := fetchOperand_bank (c := c) (s := (t.setIr op).setCur (some d.mnemonic)) d.mode hfetch
          cases ho : fetchOperand c d.mode ((t.setIr op).setCur (some d.mnemonic)) with
          | err k u => rw [ho] at hoperand; exact ends_next (hbank _ hoperand)
          | ok w u => rw [ho] at hoperand; exact hop op d run w u hd hoperand

/-- A step ends with the bank it began with, or runs an instruction from a state with that bank. -/
theorem step_ends {s : State} {Q : State → Prop} (hbank : ∀ t, t.bank = s.bank → Q t)
    (hexec : ∀ i u, u.bank = s.bank → Ends Q (exec i u)) : Ends Q (step s) := by
  refine cycle_ends hbank fun op d run w u hfind hu => ?_
  obtain ⟨e, -, he⟩ := Option.map_eq_some_iff.1 hfind
  cases he
  exact hexec _ u hu

/-- Settles O18: the fetch leaves A and DR, `tad` copies A to DR, and every other instruction leaves DR. -/
theorem dataRegisterWriter : Obligations.DataRegisterWriter := fun s t ht => by
  refine step_ends (Q := fun t => t.dr ≠ s.dr → t.result = some (.ok .tad) ∧ t.dr = s.a)
    (fun t h hne => absurd (congrArg Bank.dr h) hne) (fun i u hu t ht hne => ?_) t ht
  have hdr : u.dr = s.dr := congrArg Bank.dr hu
  by_cases hi : i = .tad
  · subst hi
    rw [exec_tad] at ht
    cases ht
    exact ⟨rfl, congrArg Bank.a hu⟩
  · exact absurd (((exec_frame i u t ht).data hi).trans hdr) hne

end Sys2Proof.Machine
end

section
/-! PROOF of O15, O17, O25, O26, O27 and O28. The Memory Bus of the reference machine: its regions, its byte and word
accesses, and what follows for a whole step: ROM and character map are out of every write's reach, and an instruction that
makes no bus write leaves memory and the peripheral. -/

namespace Sys2Proof.Machine

/-! The region map (O25). -/

/-- Settles O25: the laws of `regionOf` by region; each port address has the mode of its offset. -/
theorem regionMap : Obligations.RegionMap := by
  refine ⟨fun a ha => ?ram, fun a hlo hhi => ?cartridge, fun a hlo hhi => regionOf_reference_charMap hlo hhi,
    fun a hlo hhi => regionOf_reference_rom hlo (by omega), fun p hp => ?port⟩
  case ram => rw [regionOf_reference_ram (by omega), if_neg (by omega)]
  case cartridge => rw [regionOf_reference_ram (by omega), if_pos (by omega)]
  case port =>
    have hentry : 0xE000 ≤ p.1 ∧ p.1 ≤ 0xE008 ∧ videoModeAt (p.1 - 0xE000) = some p.2 := by
      fin_cases hp <;> decide
    obtain ⟨hlo, hhi, hmode⟩ := hentry
    exact regionOf_reference_port hlo hhi hmode

/-! Byte accesses (O26, O27). -/

theorem videoModeAt_of_inPort {a : Word} (h : InPort a) : ∃ mode, videoModeAt (a.toNat - 0xE000) = some mode := by
  obtain ⟨hlo, hhi⟩ := h
  exact videoModeAt_isSome (by omega)

/-- The framebuffer index is in bounds, or the one error of plot (R358). -/
theorem frameIndex_cases (c : Config) (v : Video) :
    (∃ i, frameIndex c v = .ok i) ∨ frameIndex c v = .error .outOfBoundsCoordinate := by
  simp only [frameIndex]
  split
  · exact .inl ⟨_, rfl⟩
  · exact .inr rfl

/-- Everything a read of the peripheral can answer. -/
theorem videoRead_answers (c : Config) (mode : VideoMode) (v : Video) :
    (∃ b, videoRead c mode v = .ok b) ∨ videoRead c mode v = .error .unreadableMode ∨
      videoRead c mode v = .error .outOfBoundsCoordinate := by
  cases mode with
  | plot =>
    rcases frameIndex_cases c v with ⟨i, hi⟩ | hout
    · exact .inl ⟨v.fb.read i, by rw [videoRead, hi]⟩
    · exact .inr (.inr (by rw [videoRead, hout]))
  | clear | setX | setY | setD1 | setD2 | setD3 | setD4 | text => exact .inr (.inl rfl)

/-- Everything a command of the peripheral can answer. -/
theorem videoWrite_answers (c : Config) (mode : VideoMode) (b : Byte) (v : Video) :
    (∃ w, videoWrite c mode b v = .ok w) ∨ videoWrite c mode b v = .error .unimplementedMode ∨
      videoWrite c mode b v = .error .outOfBoundsCoordinate := by
  cases mode with
  | plot =>
    rcases frameIndex_cases c v with ⟨i, hi⟩ | hout
    · exact .inl ⟨{ v with fb := v.fb.write i v.d1 }, by rw [videoWrite, videoPlot, hi]⟩
    · exact .inr (.inr (by rw [videoWrite, videoPlot, hout]))
  | clear | setX | setY | setD1 | setD2 | setD3 | setD4 => exact .inl ⟨_, rfl⟩
  | text => exact .inr (.inl rfl)

/-- Settles O26: the laws of a bus read inside and outside the port. -/
theorem busReadRule : Obligations.BusReadRule := by
  refine ⟨fun s a ha => ?outside, fun s a mode ⟨hlo, hhi⟩ hmode => busRead_of_port hlo hhi hmode,
    fun a ha => videoModeAt_of_inPort ha, videoRead_answers Config.reference, fun s a => ?value⟩
  case outside =>
    unfold InPort at ha
    exact busRead_of_not_port (by omega)
  case value =>
    rcases readByte_cases Config.reference a s with ⟨b, -, hok⟩ | ⟨k, -, herr⟩
    · exact .inl ⟨b, hok⟩
    · exact .inr ⟨k, herr⟩

/-- Settles O27: the laws of a bus write by region. -/
theorem busWriteRule : Obligations.BusWriteRule := by
  refine ⟨fun s a b ha => busWrite_of_readOnly ha, fun s a b mode ⟨hlo, hhi⟩ hmode => ?port,
    fun a ha => videoModeAt_of_inPort ha, videoWrite_answers Config.reference,
    fun s a b hwf ha => ⟨_, busWrite_ram_byteStored b hwf ha⟩⟩
  case port =>
    rw [busWrite_of_port hlo hhi hmode]
    cases videoWrite Config.reference mode b s.video <;> rfl

/-! Word accesses (O28). -/

/-- Settles O28: the laws of word reads and writes, and of the two halves of a word. -/
theorem wordAccessOrder : Obligations.WordAccessOrder :=
  ⟨fun _ _ _ _ hh hl => readWord_ok hh hl, fun _ _ _ h => readWord_err h, fun _ _ _ _ _ h1 h2 => writeWord_ok h1 h2,
    fun _ _ _ _ h => writeWord_err_first h, fun _ _ _ _ _ h1 h2 => writeWord_err_second h1 h2,
    fun h l => ⟨wordOf_toNat h l, hiByte_wordOf h l, loByte_wordOf h l⟩, fun a => BitVec.toNat_add a 1#16⟩

/-! Read-only bytes (O15). -/

/-- A bus write that succeeds is below ROM and character map (R61). -/
theorem not_inReadOnly_of_busWrite_ok {s t : State} {x : Word} {b : Byte} (h : busWrite Config.reference s x b = .ok t) :
    ¬ InReadOnly x := by
  intro hx
  rw [busWrite_of_readOnly hx] at h
  cases h

/-- Memory is canonical and holds `v` at `a`. -/
def HoldsByte (a : Word) (v : Byte) (m : Memory) : Prop := m.wf = true ∧ m.read a.toNat = v

/-- A bus write leaves a read-only byte: it stores at another address, or commands the peripheral. -/
theorem HoldsByte.busWrite {a : Word} {v : Byte} (ha : InReadOnly a) {s t : State} {x : Word} {b : Byte}
    (h : busWrite Config.reference s x b = .ok t) (hs : HoldsByte a v s.mem) : HoldsByte a v t.mem := by
  obtain ⟨hwf, hread⟩ := hs
  have hne : a.toNat ≠ x.toNat := fun heq =>
    not_inReadOnly_of_busWrite_ok h (BitVec.eq_of_toNat_eq heq ▸ ha)
  rcases busWrite_cases h with ⟨-, rfl⟩ | ⟨_, _, -, -, rfl⟩
  · refine ⟨Memory.wf_write hwf x.toNat b, ?_⟩
    rw [State.setMem_mem, Memory.read_write hwf, if_neg hne, hread]
  · exact ⟨hwf, hread⟩

/-- Every update of a step leaves a read-only byte. -/
theorem holdsByte_closed {a : Word} (ha : InReadOnly a) (v : Byte) :
    StepClosed Config.reference fun s => HoldsByte a v s.mem :=
  .of_status_memory_video (P := fun _ m _ => HoldsByte a v m) (fun _ _ _ hs => hs) fun _ _ _ _ hw hs => hs.busWrite ha hw

/-- Settles O15: a step is a chain of updates that each leave the byte. -/
theorem readOnlyBytesNeverChange : Obligations.ReadOnlyBytesNeverChange := fun s t a hwf ha ht =>
  (step_closed (holdsByte_closed ha (s.mem.read a.toNat)) (s := s) ⟨hwf, rfl⟩ t ht).2

/-! Instructions that make no bus write (O17). -/

/-- Memory and the peripheral in `t` are as in `s`. -/
def SameContents (s t : State) : Prop := t.mem = s.mem ∧ t.video = s.video

theorem SameContents.refl (s : State) : SameContents s s := ⟨rfl, rfl⟩

section parts
variable {c : Config} {s u : State}

theorem SameContents.writeReg16 (r : Reg16) (v : Word) (h : SameContents s u) : SameContents s (u.writeReg16 r v) := by
  cases r <;> exact h

theorem SameContents.writeReg8 (r : Reg8) (v : Byte) (h : SameContents s u) : SameContents s (u.writeReg8 r v) := by
  cases r <;> exact h

theorem resolve_sameContents (mode : MemMode) (w : Word) : SameContents s (resolve c mode w s).after := by
  rcases resolve_cases c mode w s with ⟨ea, h⟩ | ⟨k, -, h⟩ <;> rw [h] <;> exact .refl s

theorem operand8_sameContents (src : Src8) : SameContents s (operand8 c src s).after := by
  cases src with
  | imm b => exact .refl s
  | mem mode w => exact Access.after_andThen (resolve_sameContents mode w) fun _ _ h => StepClosed.readByte _ h

theorem operand16_sameContents (src : Src16) : SameContents s (operand16 c src s).after := by
  cases src with
  | imm w => exact .refl s
  | mem mode w => exact Access.after_andThen (resolve_sameContents mode w) fun _ _ h => StepClosed.readWord _ h

theorem pop8_sameContents : SameContents s (pop8 c s).after :=
  Access.after_andThen (StepClosed.readByte _ (.refl s)) fun _ _ h => h

theorem pop16_sameContents : SameContents s (pop16 c s).after :=
  Access.after_andThen (StepClosed.readByte _ (.refl s)) fun _ _ h =>
    Access.after_andThen (StepClosed.readByte _ h) fun _ _ h => h

theorem finish_sameContents (m : Mnemonic) {p : Access Unit} (h : SameContents s p.after) :
    Ends (SameContents s) (finish m p) := by
  cases p <;> exact ends_next h

end parts

section meanings
variable {c : Config} {m : Mnemonic} {s : State}

theorem load16_sameContents {r : Reg16} (src : Src16) : Ends (SameContents s) (load16 c m r src s) :=
  finish_sameContents m (Access.after_andThen (operand16_sameContents src) fun v _ h => h.writeReg16 r v)

theorem load8_sameContents {r : Reg8} (src : Src8) : Ends (SameContents s) (load8 c m r src s) :=
  finish_sameContents m (Access.after_andThen (operand8_sameContents src) fun v _ h => h.writeReg8 r v)

theorem transfer_sameContents {x y : Reg16} : Ends (SameContents s) (transfer m x y s) :=
  finish_sameContents m ((SameContents.refl s).writeReg16 y _)

theorem transferToSr_sameContents : Ends (SameContents s) (transferToSr m s) := finish_sameContents m (.refl s)

theorem transferFromSr_sameContents : Ends (SameContents s) (transferFromSr m s) :=
  finish_sameContents m ((SameContents.refl s).writeReg8 .al _)

theorem alu16_sameContents {op : AluOp} {r : Reg16} (src : Src16) : Ends (SameContents s) (alu16 c m op r src s) :=
  finish_sameContents m (Access.after_andThen (operand16_sameContents src) fun _ _ h => h.writeReg16 r _)

theorem alu8_sameContents {op : AluOp} {r : Reg8} (src : Src8) : Ends (SameContents s) (alu8 c m op r src s) :=
  finish_sameContents m (Access.after_andThen (operand8_sameContents src) fun _ _ h => h.writeReg8 r _)

theorem indexStep_sameContents {op : AluOp} {r : Reg16} : Ends (SameContents s) (indexStep m op r s) :=
  finish_sameContents m ((SameContents.refl s).writeReg16 r _)

theorem pop_sameContents {r : Reg16} : Ends (SameContents s) (pop c m r s) :=
  finish_sameContents m (Access.after_andThen pop16_sameContents fun v _ h => h.writeReg16 r v)

theorem popStatus_sameContents : Ends (SameContents s) (popStatus c m s) :=
  finish_sameContents m (Access.after_andThen pop8_sameContents fun _ _ h => h)

theorem jump_sameContents {cond : Cond} (mode : MemMode) (w : Word) : Ends (SameContents s) (jump c m cond mode w s) :=
  finish_sameContents m (Access.after_andThen (resolve_sameContents mode w) fun _ u h => by
    show SameContents s (if cond.holds u.sr then u.setPc u.ar else u)
    split <;> exact h)

theorem returnFrom_sameContents : Ends (SameContents s) (returnFrom c m s) :=
  finish_sameContents m (Access.after_andThen pop16_sameContents fun _ _ h => h)

theorem writeFlag_sameContents {f : Flag} {v : Bool} : Ends (SameContents s) (writeFlag m f v s) :=
  finish_sameContents m (.refl s)

theorem noOperation_sameContents : Ends (SameContents s) (noOperation m s) := finish_sameContents m (.refl s)

theorem haltCore_sameContents : Ends (SameContents s) (haltCore m s) := finish_sameContents m (.refl s)

theorem privileged_sameContents {body : State → Outcome} (h : Ends (SameContents s) (body s)) :
    Ends (SameContents s) (privileged s body) := privileged_ends h (.refl s)

end meanings

/-- The mnemonics whose instructions write through the bus (R141, R242, R244, R246, R267). -/
def busWriters : List Mnemonic :=
  [.sta, .stah, .stal, .stb, .stbh, .stbl, .sti, .stj, .psha, .pshb, .pshsr, .call]

/-- Each instruction that is no bus writer, by the shared meaning it is made of. -/
theorem exec_sameContents (i : Instr) (s : State) (hi : i.mnemonic ∉ busWriters) :
    Ends (SameContents s) (exec i s) := by
  cases i with
  | staAbs | staAbsi | staAbsj | staInd | stahAbs | stalAbs | stalAbsi | stalAbsj | stalInd | stbAbs | stbhAbs | stblAbs
  | stiAbs | stjAbs | psha | pshb | pshsr | callAbs => exact absurd (by simp [Instr.mnemonic, busWriters]) hi
  | nop => exact noOperation_sameContents
  | halt => exact privileged_sameContents haltCore_sameContents
  | clc | sec | clo | cld | sed => exact writeFlag_sameContents
  | cli | sei | cls => exact privileged_sameContents writeFlag_sameContents
  | ldaImm2 w | ldbImm2 w | ldiImm2 w | ldjImm2 w | ldspImm2 w =>
    exact load16_sameContents (c := Config.reference) (.imm w)
  | ldaAbs | ldaAbsi | ldaAbsj | ldaInd | ldbAbs | ldiAbs | ldjAbs | ldspAbs => exact load16_sameContents _
  | ldahImm1 b | ldalImm1 b | ldbhImm1 b | ldblImm1 b => exact load8_sameContents (c := Config.reference) (.imm b)
  | ldahAbs | ldalAbs | ldalAbsi | ldalAbsj | ldalInd | ldbhAbs | ldblAbs => exact load8_sameContents _
  | tab | tba | tai | tia | taj | tja | tad | tda | tasp | tspa => exact transfer_sameContents
  | tasr => exact privileged_sameContents transferToSr_sameContents
  | tsra => exact transferFromSr_sameContents
  | addImm2 w | subImm2 w | andImm2 w | orImm2 w | addbImm2 w | subbImm2 w | andbImm2 w | orbImm2 w =>
    exact alu16_sameContents (c := Config.reference) (.imm w)
  | addAbs | subAbs | andAbs | orAbs | addbAbs | subbAbs | andbAbs | orbAbs => exact alu16_sameContents _
  | addhImm1 b | addlImm1 b | subhImm1 b | sublImm1 b | andlImm1 b | orlImm1 b | addbhImm1 b | addblImm1 b | subbhImm1 b
  | subblImm1 b | andblImm1 b | orblImm1 b => exact alu8_sameContents (c := Config.reference) (.imm b)
  | addhAbs | addlAbs | subhAbs | sublAbs | andlAbs | orlAbs | addbhAbs | addblAbs | subbhAbs | subblAbs | andblAbs
  | orblAbs => exact alu8_sameContents _
  | ini | dei | inj | dej => exact indexStep_sameContents
  | popa | popb => exact pop_sameContents
  | popsr => exact privileged_sameContents popStatus_sameContents
  | jmpAbs w | jeqAbs w | jneAbs w | jcsAbs w | jccAbs w | jnsAbs w | jncAbs w | josAbs w | jocAbs w | jltAbs w
  | jgeAbs w => exact jump_sameContents (c := Config.reference) .abs w
  | jmpInd w => exact jump_sameContents .ind w
  | ret => exact returnFrom_sameContents

/-- Settles O17: every instruction but the bus writers leaves memory and the peripheral. -/
theorem memoryAndDeviceWriters : Obligations.MemoryAndDeviceWriters := fun i s t h hi => exec_sameContents i s hi t h

end Sys2Proof.Machine
end

section
/-! PROOF of O1 to O5. The table is written three times: `encode` by instruction, `refEntries` by row, the spec's opcode
ranges by number. Each pair is compared once (`TableRow.statement`, `encode_build`, `refEntries_opcodes`); the round trips, the
refusals and the constraints of R94 follow from the laws of lookup and of operand bytes. -/

namespace Sys2Proof.Laws.TableRow

/-- What the table says of every instruction: the lemmas of this namespace, in the order of the constructors. -/
theorem statement (i : Instr) : Statement i :=
  Instr.rec (motive := Statement) nop halt clc sec clo cld sed cli sei cls
    ldaImm2 ldaAbs ldaAbsi ldaAbsj ldaInd ldahImm1 ldahAbs ldalImm1 ldalAbs ldalAbsi ldalAbsj ldalInd
    ldbImm2 ldbAbs ldbhImm1 ldbhAbs ldblImm1 ldblAbs ldiImm2 ldiAbs ldjImm2 ldjAbs ldspImm2 ldspAbs
    staAbs staAbsi staAbsj staInd stahAbs stalAbs stalAbsi stalAbsj stalInd stbAbs stbhAbs stblAbs stiAbs stjAbs
    tab tba tai tia taj tja tad tda tasp tspa tasr tsra
    addImm2 addAbs subImm2 subAbs andImm2 andAbs orImm2 orAbs
    addhImm1 addhAbs addlImm1 addlAbs subhImm1 subhAbs sublImm1 sublAbs andlImm1 andlAbs orlImm1 orlAbs
    addbImm2 addbAbs subbImm2 subbAbs andbImm2 andbAbs orbImm2 orbAbs
    addbhImm1 addbhAbs addblImm1 addblAbs subbhImm1 subbhAbs subblImm1 subblAbs andblImm1 andblAbs orblImm1 orblAbs
    ini dei inj dej psha popa pshb popb pshsr popsr
    jmpAbs jmpInd jeqAbs jneAbs jcsAbs jccAbs jnsAbs jncAbs josAbs jocAbs jltAbs jgeAbs callAbs ret i

end Sys2Proof.Laws.TableRow

namespace Sys2Proof

open Laws (TableRow.statement)

/-! Counts and modes (R94 (b)). -/

theorem countAgrees_iff {mode : AddrMode} {n : Nat} : countAgrees mode n = true ↔ n = mode.operandByteCount := by
  cases mode <;> exact beq_iff_eq

theorem Descriptor.wellFormed_iff {d : Descriptor} :
    d.wellFormed = true ↔ d.operandByteCount = d.mode.operandByteCount ∧ pairDefined d.mnemonic d.mode = true := by
  rw [Descriptor.wellFormed, Bool.and_eq_true, countAgrees_iff]

/-- Every row of the reference table meets R94 (b) and (d). -/
theorem refEntries_wellFormed : ∀ e ∈ refEntries, e.desc.wellFormed = true := by decide +kernel

theorem findEntry_count {op : Byte} {e : Entry} (h : findEntry op = some e) :
    e.desc.operandByteCount = e.desc.mode.operandByteCount :=
  (Descriptor.wellFormed_iff.1 (refEntries_wellFormed e (findEntry_mem h).1)).1

/-! Operand bytes (R91). -/

/-- Bytes that give an operand begin with the operand's bytes. -/
theorem eq_operandBytes_of_takeOperand {mode : AddrMode} {bs rest : List Byte} {w : Word}
    (h : takeOperand mode.operandByteCount bs = some (w, rest)) : bs = operandBytes mode w ++ rest := by
  cases mode with
  | imp =>
    cases h
    rfl
  | imm1 =>
    cases bs with
    | nil => cases h
    | cons b bs =>
      cases h
      simp [operandBytes]
  | imm2 | abs | absi | absj | ind =>
    rcases bs with - | ⟨h, - | ⟨l, bs⟩⟩
    · cases h
    · cases h
    · cases h
      simp [operandBytes]

/-- Two bytes are enough for the operand of any mode. -/
theorem takeOperand_two (mode : AddrMode) (x y : Byte) (rest : List Byte) :
    ∃ w r, takeOperand mode.operandByteCount (x :: y :: rest) = some (w, r) := by
  cases mode <;> exact ⟨_, _, rfl⟩

/-! The round trips. -/

/-- Settles O1: the opcode finds the instruction's own row, whose mode takes exactly the operand's bytes. -/
theorem decodeOfEncode : Obligations.DecodeOfEncode := by
  intro i rest
  obtain ⟨e, w, hfind, hdesc, hbuild, hbytes⟩ := TableRow.statement i
  have hoperand : takeOperand e.desc.operandByteCount (operandBytes i.mode w ++ rest) =
      some (operandWord i.mode w, rest) := by
    rw [hdesc]
    exact takeOperand_operandBytes i.mode w rest
  rw [hbytes, List.cons_append, decode_of_row hfind hoperand, hbuild]

/-- What `decode` answers comes from one row and the operand its count takes. -/
theorem decode_eq_ok {bs rest : List Byte} {i : Instr} (h : decode bs = .ok (i, rest)) :
    ∃ op tail e w, bs = op :: tail ∧ findEntry op = some e ∧
      takeOperand e.desc.operandByteCount tail = some (w, rest) ∧ i = e.build w := by
  cases bs with
  | nil => cases h
  | cons op tail =>
    cases he : findEntry op with
    | none =>
      rw [decode_of_no_row tail he] at h
      cases h
    | some e =>
      cases ho : takeOperand e.desc.operandByteCount tail with
      | none => simp [decode, he, ho] at h
      | some operand =>
        obtain ⟨w, r⟩ := operand
        rw [decode_of_row he ho] at h
        cases h
        exact ⟨op, tail, e, w, rfl, he, ho, rfl⟩

/-- Row by row, `encode` writes the row's opcode and the operand bytes of the row's mode (R91, R97). -/
theorem encode_build {e : Entry} (he : e ∈ refEntries) (w : Word) :
    encode (e.build w) = e.opcode :: operandBytes e.desc.mode w := by
  have hrows : refEntries.map (fun e => encode (e.build w)) =
      refEntries.map fun e => e.opcode :: operandBytes e.desc.mode w := rfl
  exact List.map_inj_left.1 hrows e he

/-- Settles O2: the row that was read writes the opcode it was found under and the operand bytes it took. -/
theorem encodeOfDecode : Obligations.EncodeOfDecode := by
  intro bs rest i h
  obtain ⟨op, tail, e, w, rfl, hfind, hoperand, rfl⟩ := decode_eq_ok h
  obtain ⟨hmem, hop⟩ := findEntry_mem hfind
  rw [findEntry_count hfind] at hoperand
  rw [encode_build hmem, hop, List.cons_append, eq_operandBytes_of_takeOperand hoperand]

/-- Settles O3: each word is the encoding of its instruction, byte for byte. -/
theorem specWordsDecode : Obligations.SpecWordsDecode :=
  ⟨decodeOfEncode .halt [], decodeOfEncode (.ldaImm2 0x1234#16) [], decodeOfEncode (.ldalAbsi 0x0300#16) [],
    decodeOfEncode (.ldahImm1 0x7F#8) [0x01#8], decodeOfEncode (.staInd 0x0010#16) [], decodeOfEncode .tasr [],
    decodeOfEncode (.subImm2 0x0005#16) [], decodeOfEncode (.orblAbs 0xFFFE#16) [], decodeOfEncode .dej [],
    decodeOfEncode .popsr [], decodeOfEncode (.jmpInd 0x0010#16) [], decodeOfEncode (.callAbs 0x0300#16) []⟩

/-! Assigned opcodes (R98). -/

/-- The opcodes of the table in the order of its rows, run by run (R97). -/
theorem refEntries_opcodes :
    refEntries.map (fun e => e.opcode.toNat) =
      List.range' 0x01 2 ++ List.range' 0x08 8 ++ List.range' 0x10 24 ++ List.range' 0x30 14 ++ List.range' 0x40 12 ++
        List.range' 0x50 20 ++ List.range' 0x70 20 ++ List.range' 0x90 4 ++ List.range' 0xA0 6 ++ List.range' 0xB0 14 := by
  decide

theorem findEntry_eq_none_iff {op : Byte} :
    findEntry op = none ↔ op.toNat ∉ refEntries.map fun e => e.opcode.toNat := by
  simp [findEntry, BitVec.toNat_inj]

/-- The opcodes outside the runs are those that R98 lists. -/
theorem findEntry_eq_none_iff_unassigned {op : Byte} : findEntry op = none ↔ Machine.Unassigned op := by
  have hlt := op.isLt
  rw [findEntry_eq_none_iff, refEntries_opcodes]
  simp only [List.mem_append, List.mem_range'_1, Machine.Unassigned]
  omega

/-- Settles O4: lookup finds no row exactly for the opcodes of R98, and a row that it finds has its operand in two bytes. -/
theorem unassignedOpcodesRefused : Obligations.UnassignedOpcodesRefused := by
  refine ⟨fun op => ?lookup, fun op rest h => ?refused, fun op x y rest h => ?decoded⟩
  case lookup => rw [refItab_lookup, Option.map_eq_none_iff, findEntry_eq_none_iff_unassigned]
  case refused => exact decode_of_no_row rest (findEntry_eq_none_iff_unassigned.2 h)
  case decoded =>
    obtain ⟨e, he⟩ := Option.ne_none_iff_exists'.1 (mt findEntry_eq_none_iff_unassigned.1 h)
    obtain ⟨w, r, hoperand⟩ := takeOperand_two e.desc.mode x y rest
    rw [← findEntry_count he] at hoperand
    exact ⟨e.build w, r, decode_of_row he hoperand⟩

/-! The constraints on a table (R94). -/

/-- A table is well-formed when no opcode stands twice and lookup's descriptor of each entry meets R94. -/
theorem Itab.wellFormed_iff {t : Itab} :
    t.wellFormed = true ↔ (t.map Prod.fst).Nodup ∧ ∀ r ∈ t, r.2.descriptor.wellFormed = true := by
  induction t with
  | nil => simp [Itab.wellFormed]
  | cons row rows ih =>
    simp only [Itab.wellFormed, Bool.and_eq_true, ih, Declaration.wellFormed_eq, List.all_eq_true, bne_iff_ne, List.map_cons,
      List.nodup_cons, List.mem_map, List.forall_mem_cons, not_exists, not_and]
    tauto

/-- What lookup answers in a well-formed table meets R94 (b) and (d). -/
theorem Itab.wellFormed_lookup {t : Itab} {op : Byte} {d : Descriptor} (ht : t.wellFormed = true) (h : t.lookup op = some d) :
    d.wellFormed = true := by
  obtain ⟨e, hmem, rfl⟩ := Itab.lookup_mem h
  exact (Itab.wellFormed_iff.1 ht).2 _ hmem

/-- The rows stand in the ascending order of their opcodes, so no opcode stands twice (R94 (a)). -/
theorem refEntries_opcode_nodup : (refEntries.map Entry.opcode).Nodup := by
  have hsorted : (refEntries.map fun e => e.opcode.toNat).Pairwise (· < ·) :=
    List.isChain_iff_pairwise.1 (by decide +kernel)
  rw [List.Nodup, List.pairwise_map]
  exact (List.pairwise_map.1 hsorted).imp fun hlt heq => absurd (congrArg BitVec.toNat heq) hlt.ne

/-- The reference table declared in any way that lookup reads back as its rows is well-formed. -/
theorem wellFormed_of_declares {declare : Descriptor → Declaration}
    (h : ∀ e ∈ refEntries, (declare e.desc).descriptor = e.desc) :
    Itab.wellFormed (refEntries.map fun e => (e.opcode, declare e.desc)) = true := by
  refine Itab.wellFormed_iff.2 ⟨?_, ?_⟩
  · rw [List.map_map]
    exact refEntries_opcode_nodup
  · refine List.forall_mem_map.2 fun e he => ?_
    rw [h e he]
    exact refEntries_wellFormed e he

/-- Untagged, each row is read back as it is: its count gives the width of its immediate (R93). -/
theorem refEntries_untagged (e : Entry) (he : e ∈ refEntries) : e.desc.declaredUntagged.descriptor = e.desc :=
  Descriptor.declaredUntagged_descriptor
    (countAgrees_iff.2 (Descriptor.wellFormed_iff.1 (refEntries_wellFormed e he)).1)

theorem refItabUntagged_lookup (op : Byte) : refItabUntagged.lookup op = (findEntry op).map Entry.desc := by
  have hfind : refItabUntagged.lookup op = (findEntry op).map fun e => e.desc.declaredUntagged.descriptor := by
    simp only [Itab.lookup, refItabUntagged, findEntry, List.find?_map, Option.map_map]
    rfl
  rw [hfind]
  exact Option.map_congr fun e he => refEntries_untagged e (findEntry_mem he).1

/-- Lookup of the opcode that stands first. -/
theorem Itab.lookup_cons_self (op : Byte) (d : Declaration) (t : Itab) : Itab.lookup ((op, d) :: t) op = some d.descriptor := by
  simp [Itab.lookup]

/-- Settles O5: opcodes in ascending order and well-formed rows make the table, however its immediates are declared; the
row of an instruction gives its length and its descriptor. -/
theorem referenceTableMeetsTheConstraints : Obligations.ReferenceTableMeetsTheConstraints := by
  refine ⟨wellFormed_of_declares fun e _ => Descriptor.declared_descriptor e.desc, rfl, fun i => ?row,
    wellFormed_of_declares refEntries_untagged, fun op => ?untagged, fun t op m p => ?rewrite⟩
  case row =>
    obtain ⟨e, w, hfind, hdesc, -, hbytes⟩ := TableRow.statement i
    rw [hbytes]
    refine ⟨?_, ?_⟩
    · rw [List.length_cons, operandBytes_length, Nat.add_comm]
    · rw [List.getD_cons_zero, refItab_lookup, hfind, Option.map_some, hdesc]
  case untagged => rw [refItabUntagged_lookup, refItab_lookup]
  case rewrite => exact ⟨Itab.lookup_cons_self op _ t, Itab.lookup_cons_self op _ t⟩

end Sys2Proof
end

section
/-! PROOF of O21. A step is refused only where `onForm` meets a pair with no form; a mnemonic's shape says which modes give its
operation a form, and R94 (d) allows no others. -/

namespace Sys2Proof.Machine

/-! Every end that is no refusal is a next state. -/

theorem completes_next (s : State) : Completes (.next s) := ⟨s, rfl⟩

theorem finish_completes (m : Mnemonic) (p : Access Unit) : Completes (finish m p) := by
  cases p <;> exact completes_next _

theorem takeFault_completes (k : ErrorKind) (s : State) : Completes (takeFault k s) := completes_next _

/-- A cycle completes when the operations it can find do: every other end is a stop or a fault. -/
theorem cycle_completes {c : Config} {find : Byte → Option (Descriptor × (Word → State → Outcome))} (s : State)
    (hop : ∀ op d run, find op = some (d, run) → ∀ w t, Completes (run w t)) : Completes (cycle c find s) := by
  unfold cycle
  cases s.run with
  | halted => exact completes_next _
  | faulted => exact completes_next _
  | running =>
    cases fetchByte c s with
    | err k t => exact takeFault_completes k t
    | ok op t =>
      dsimp only
      cases hfind : find op with
      | none => exact takeFault_completes _ _
      | some found =>
        obtain ⟨d, run⟩ := found
        dsimp only
        split
        · exact takeFault_completes _ _
        · cases fetchOperand c d.mode ((t.setIr op).setCur (some d.mnemonic)) with
          | err k u => exact takeFault_completes k u
          | ok w u => exact hop op d run hfind w u

/-! The form of a defined pair (R125). -/

theorem onForm_completes {α : Type} {m : Mnemonic} {mode : AddrMode} {form : Option α} {run : α → Outcome}
    (hform : form.isSome = true) (hrun : ∀ x, Completes (run x)) : Completes (onForm m mode form run) := by
  obtain ⟨x, rfl⟩ := Option.isSome_iff_exists.1 hform
  exact hrun x

section shapes
variable {m : Mnemonic} {mode : AddrMode} {w : Word}

theorem implied_completes {run : Unit → Outcome} (hpair : pairDefined m mode = true) (hm : m.shape = .implied)
    (hrun : ∀ x, Completes (run x)) : Completes (implied m mode run) := by
  refine onForm_completes ?_ hrun
  rw [pairDefined, hm] at hpair
  rw [if_pos (beq_iff_eq.1 hpair)]
  rfl

theorem wide_completes {run : Src16 → Outcome} (hpair : pairDefined m mode = true) (hm : m.shape = .wide)
    (hrun : ∀ src, Completes (run src)) : Completes (wide m mode w run) := by
  refine onForm_completes ?_ hrun
  rw [pairDefined, hm] at hpair
  cases mode with
  | imp | imm1 => cases hpair
  | imm2 | abs | absi | absj | ind => rfl

theorem narrow_completes {run : Src8 → Outcome} (hpair : pairDefined m mode = true) (hm : m.shape = .narrow)
    (hrun : ∀ src, Completes (run src)) : Completes (narrow m mode w run) := by
  refine onForm_completes ?_ hrun
  rw [pairDefined, hm] at hpair
  cases mode with
  | imp | imm2 => cases hpair
  | imm1 | abs | absi | absj | ind => rfl

theorem memory_completes {run : MemMode → Outcome} (hpair : pairDefined m mode = true)
    (hm : m.shape = .store ∨ m.shape = .jump) (hrun : ∀ mode, Completes (run mode)) : Completes (memory m mode run) := by
  refine onForm_completes ?_ hrun
  have hmemory : mode.isMemory = true := by
    rcases hm with hm | hm <;> rwa [pairDefined, hm] at hpair
  cases mode with
  | imp | imm1 | imm2 => cases hmemory
  | abs | absi | absj | ind => rfl

end shapes

/-- The operation of a defined pair has a next state: its mnemonic's shape finds its form, and each meaning ends in
`finish`. -/
theorem operate_completes (c : Config) {d : Descriptor} (w : Word) (s : State)
    (hpair : pairDefined d.mnemonic d.mode = true) : Completes (operate c d w s) := by
  obtain ⟨m, mode, count, priv⟩ := d
  cases m with
  | nop | halt | clc | sec | clo | cld | sed | cli | sei | cls | tab | tba | tai | tia | taj | tja | tad | tda | tasp | tspa
  | tasr | tsra | ini | dei | inj | dej | psha | popa | pshb | popb | pshsr | popsr | ret =>
    exact implied_completes hpair rfl fun _ => finish_completes _ _
  | lda | ldb | ldi | ldj | ldsp | add | sub | and | or | addb | subb | andb | orb =>
    exact wide_completes hpair rfl fun _ => finish_completes _ _
  | ldah | ldal | ldbh | ldbl | addh | addl | subh | subl | andl | orl | addbh | addbl | subbh | subbl | andbl | orbl =>
    exact narrow_completes hpair rfl fun _ => finish_completes _ _
  | sta | stah | stal | stb | stbh | stbl | sti | stj =>
    exact memory_completes hpair (.inl rfl) fun _ => finish_completes _ _
  | jmp | jeq | jne | jcs | jcc | jns | jnc | jos | joc | jlt | jge | call =>
    exact memory_completes hpair (.inr rfl) fun _ => finish_completes _ _

/-- Settles O21: lookup in a well-formed table answers defined pairs alone, with the count of their mode. -/
theorem tableConstraintsPreventRefusal : Obligations.TableConstraintsPreventRefusal := by
  intro c t s ht
  refine ⟨cycle_completes s fun op d run hfind w u => ?completes, fun op d hd => ?count⟩
  case completes =>
    obtain ⟨d, hd, hfound⟩ := Option.map_eq_some_iff.1 hfind
    cases hfound
    exact operate_completes c w u (Descriptor.wellFormed_iff.1 (Itab.wellFormed_lookup ht hd)).2
  case count => exact (Descriptor.wellFormed_iff.1 (Itab.wellFormed_lookup ht hd)).1

end Sys2Proof.Machine
end

section
/-! PROOF of O6 to O11. One equation for each end of a cycle: stopped, a fault of the fetch, the lookup or the privilege
check, or `exec` of a row's instruction in the state the fetch leaves. O6 to O10 cite them one by one; O11 needs them all
(`step_cases`) and what an instruction does to RUN and CUR (`exec_endsAs`). -/

namespace Sys2Proof.Machine

open Laws (TableRow.statement)

/-! The rows (R97, R290). -/

/-- Row by row, what a row builds has the row's descriptor. -/
theorem build_descriptor {e : Entry} (he : e ∈ refEntries) (w : Word) : (e.build w).descriptor = e.desc := by
  have hrows : refEntries.map (fun e => (e.build w).descriptor) = refEntries.map Entry.desc := rfl
  exact List.map_inj_left.1 hrows e he

/-- A privileged instruction has no operand byte. -/
theorem refEntries_privileged_imp : ∀ e ∈ refEntries, e.desc.needsPrivilege = true → e.desc.mode = .imp := by
  decide +kernel

/-- The privileged instructions by name (R290). -/
theorem needsPrivilege_iff (i : Instr) :
    i.descriptor.needsPrivilege = true ↔ i ∈ [Instr.halt, .cli, .sei, .cls, .tasr, .popsr] := by
  refine ⟨fun h => ?_, fun h => ?_⟩
  · cases i with
    | halt | cli | sei | cls | tasr | popsr => simp
    | _ => cases h
  · simp only [List.mem_cons, List.not_mem_nil, or_false] at h
    rcases h with rfl | rfl | rfl | rfl | rfl | rfl <;> rfl

/-- The second privilege check of a privileged meaning (log 6). -/
theorem exec_privileged_user {i : Instr} {s : State} (hi : i.descriptor.needsPrivilege = true)
    (hs : s.supervisor = false) : exec i s = endsFault .privilegeFault s := by
  have hmem := (needsPrivilege_iff i).1 hi
  fin_cases hmem <;> exact privileged_user hs

/-! The opcode fetch. -/

theorem fetchByte_ok {c : Config} {s : State} {b : Byte} (h : busRead c s s.pc = .ok b) :
    fetchByte c s = .ok b (s.setPc (s.pc + 1#16)) := by
  rw [fetchByte, readByte_ok h, Access.andThen_ok]

theorem fetchByte_err {c : Config} {s : State} {k : ErrorKind} (h : busRead c s s.pc = .error k) :
    fetchByte c s = .err k s := by
  rw [fetchByte, readByte_err h, Access.andThen_err]

/-- The state in which a cycle checks privilege and fetches the operand: PC past the opcode, IR and CUR written (R112). -/
def State.opcodeFetched (op : Byte) (m : Mnemonic) (s : State) : State :=
  ((s.setPc (s.pc + 1#16)).setIr op).setCur (some m)

/-! The ends of a cycle. -/

section ends
variable {s : State}

theorem step_of_stopped (h : s.run ≠ .running) : step s = .next { s with result := some (.stopped s.run) } := by
  cases hrun : s.run with
  | running => exact absurd hrun h
  | halted | faulted => simp only [step, cycle, hrun, State.setResult]

theorem step_of_opcode_fails {k : ErrorKind} (hrun : s.run = .running) (hop : ByteReadFails s s.pc k) :
    step s = endsFault k s := by
  simp only [step, cycle, hrun, fetchByte_err hop, takeFault_endsFault]

theorem step_of_unassigned {op : Byte} (hrun : s.run = .running) (hop : ReadsByte s s.pc op) (he : findEntry op = none) :
    step s = endsFault .unrecognizedOpcode { s with ir := op, pc := s.pc + 1#16 } := by
  simp only [step, cycle, hrun, fetchByte_ok hop, he, Option.map_none, takeFault_endsFault]
  rfl

variable {op : Byte} {e : Entry}

theorem step_of_user (hrun : s.run = .running) (hop : ReadsByte s s.pc op) (he : findEntry op = some e)
    (hpriv : e.desc.needsPrivilege = true) (hs : s.supervisor = false) :
    step s = endsFault .privilegeFault (s.opcodeFetched op e.desc.mnemonic) := by
  have hcheck : (e.desc.needsPrivilege && !getFlag .s (s.opcodeFetched op e.desc.mnemonic).sr) = true := by
    rw [hpriv, Bool.true_and, Bool.not_eq_true']
    exact hs
  rw [State.opcodeFetched] at hcheck ⊢
  simp only [step, cycle, hrun, fetchByte_ok hop, he, Option.map_some, operationOf, hcheck, if_true, takeFault_endsFault]

/-- Past the privilege check, a failing operand fetch faults. -/
theorem step_of_passed_operand_fails {k : ErrorKind} {t : State} (hrun : s.run = .running) (hop : ReadsByte s s.pc op)
    (he : findEntry op = some e) (hpass : (e.desc.needsPrivilege && !s.supervisor) = false)
    (ho : fetchOperand Config.reference e.desc.mode (s.opcodeFetched op e.desc.mnemonic) = .err k t) :
    step s = endsFault k t := by
  have hcheck : (e.desc.needsPrivilege && !getFlag .s (s.opcodeFetched op e.desc.mnemonic).sr) = false := hpass
  rw [State.opcodeFetched] at hcheck ho
  simp only [step, cycle, hrun, fetchByte_ok hop, he, Option.map_some, operationOf, hcheck, Bool.false_eq_true, if_false, ho,
    takeFault_endsFault]

/-- Past the privilege check, a fetched instruction runs. -/
theorem step_of_passed_operand {w : Word} {t : State} (hrun : s.run = .running) (hop : ReadsByte s s.pc op)
    (he : findEntry op = some e) (hpass : (e.desc.needsPrivilege && !s.supervisor) = false)
    (ho : fetchOperand Config.reference e.desc.mode (s.opcodeFetched op e.desc.mnemonic) = .ok w t) :
    step s = exec (e.build w) t := by
  have hcheck : (e.desc.needsPrivilege && !getFlag .s (s.opcodeFetched op e.desc.mnemonic).sr) = false := hpass
  rw [State.opcodeFetched] at hcheck ho
  simp only [step, cycle, hrun, fetchByte_ok hop, he, Option.map_some, operationOf, hcheck, Bool.false_eq_true, if_false, ho]

/-- A privileged row fetches no operand, so its operand fetch cannot fail. -/
theorem operand_fails_unprivileged {k : ErrorKind} {t : State} (he : findEntry op = some e)
    (ho : fetchOperand Config.reference e.desc.mode s = .err k t) : e.desc.needsPrivilege = false := by
  by_contra hpriv
  rw [refEntries_privileged_imp e (findEntry_mem he).1 (by simpa using hpriv)] at ho
  cases ho

theorem step_of_operand_fails {k : ErrorKind} {t : State} (hrun : s.run = .running) (hop : ReadsByte s s.pc op)
    (he : findEntry op = some e)
    (ho : fetchOperand Config.reference e.desc.mode (s.opcodeFetched op e.desc.mnemonic) = .err k t) :
    step s = endsFault k t :=
  step_of_passed_operand_fails hrun hop he (by rw [operand_fails_unprivileged he ho, Bool.false_and]) ho

/-- A fetched instruction runs; where the cycle's privilege check stops it, its own check does the same (log 6). -/
theorem step_of_operand {w : Word} {t : State} (hrun : s.run = .running) (hop : ReadsByte s s.pc op)
    (he : findEntry op = some e)
    (ho : fetchOperand Config.reference e.desc.mode (s.opcodeFetched op e.desc.mnemonic) = .ok w t) :
    step s = exec (e.build w) t := by
  cases hpass : e.desc.needsPrivilege && !s.supervisor with
  | false => exact step_of_passed_operand hrun hop he hpass ho
  | true =>
    obtain ⟨hpriv, hs⟩ : e.desc.needsPrivilege = true ∧ s.supervisor = false := by simpa using hpass
    have hmem := (findEntry_mem he).1
    have hprivileged : (e.build w).descriptor.needsPrivilege = true := by rw [build_descriptor hmem, hpriv]
    rw [refEntries_privileged_imp e hmem hpriv] at ho
    cases ho
    rw [step_of_user hrun hop he hpriv hs]
    exact (exec_privileged_user (s := s.opcodeFetched op e.desc.mnemonic) hprivileged hs).symm

end ends

/-! The operand fetch (R113, R116 to R122). -/

section operand
variable {s : State} {mode : AddrMode} {k : ErrorKind}

theorem fetchOperand_fails_first (hmode : mode ≠ .imp) (h : ByteReadFails s s.pc k) :
    fetchOperand Config.reference mode s = .err k s := by
  cases mode with
  | imp => exact absurd rfl hmode
  | imm1 | imm2 | abs | absi | absj | ind => rw [fetchOperand, fetchByte_err h, Access.andThen_err]

/-- The first byte stays in its latch, the high one of the immediate or of the address. -/
theorem fetchOperand_fails_second {h : Byte} (himp : mode ≠ .imp) (himm : mode ≠ .imm1) (hfirst : ReadsByte s s.pc h)
    (hsecond : ByteReadFails s (s.pc + 1#16) k) :
    fetchOperand Config.reference mode s = .err k
      (if mode = .imm2 then { s with pc := s.pc + 1#16, imh := h } else { s with pc := s.pc + 1#16, emh := h }) := by
  cases mode with
  | imp => exact absurd rfl himp
  | imm1 => exact absurd rfl himm
  | imm2 =>
    rw [fetchOperand, fetchByte_ok hfirst, Access.andThen_ok,
      fetchByte_err (s := (s.setPc (s.pc + 1#16)).setImh h) hsecond, Access.andThen_err]
    rfl
  | abs | absi | absj | ind =>
    rw [fetchOperand, fetchByte_ok hfirst, Access.andThen_ok,
      fetchByte_err (s := (s.setPc (s.pc + 1#16)).setEmh h) hsecond, Access.andThen_err]
    rfl

end operand

/-- What stands at an address depends on memory and the peripheral alone. -/
theorem FetchesBytes.congr {s t : State} (hmem : t.mem = s.mem) (hvideo : t.video = s.video) {a : Word} {bs : List Byte}
    (h : FetchesBytes s a bs) : FetchesBytes t a bs := by
  induction bs generalizing a with
  | nil => trivial
  | cons b bs ih =>
    obtain ⟨hfirst, hrest⟩ := h
    exact ⟨(busRead_congr hmem hvideo a).trans hfirst, ih hrest⟩

/-- The state after the operand fetch: PC past the operand bytes of the mode, each in its latch. -/
def State.operandFetched (mode : AddrMode) (w : Word) (s : State) : State :=
  match mode with
  | .imp => s
  | .imm1 => (s.setPc (s.pc + 1#16)).setIml (loByte w)
  | .imm2 => ((s.setPc (s.pc + 1#16 + 1#16)).setImh (hiByte w)).setIml (loByte w)
  | .abs | .absi | .absj | .ind => latchAddress w (s.setPc (s.pc + 1#16 + 1#16))

theorem fetchOperand_ok {s : State} {mode : AddrMode} {w : Word} (h : FetchesBytes s s.pc (operandBytes mode w)) :
    fetchOperand Config.reference mode s = .ok (operandWord mode w) (s.operandFetched mode w) := by
  cases mode with
  | imp => rfl
  | imm1 =>
    obtain ⟨hlow, -⟩ := h
    rw [fetchOperand, fetchByte_ok hlow]
    rfl
  | imm2 =>
    obtain ⟨hhigh, hlow, -⟩ := h
    rw [fetchOperand, fetchByte_ok hhigh, Access.andThen_ok,
      fetchByte_ok (s := (s.setPc (s.pc + 1#16)).setImh (hiByte w)) hlow, Access.andThen_ok, wordOf_hiByte_loByte]
    rfl
  | abs | absi | absj | ind =>
    obtain ⟨hhigh, hlow, -⟩ := h
    rw [fetchOperand, fetchByte_ok hhigh, Access.andThen_ok,
      fetchByte_ok (s := (s.setPc (s.pc + 1#16)).setEmh (hiByte w)) hlow, Access.andThen_ok, wordOf_hiByte_loByte]
    rfl

/-- `State.fetched` byte by byte: the opcode, then the operand. -/
theorem fetched_eq (s : State) {i : Instr} {op : Byte} {w : Word} (hbytes : encode i = op :: operandBytes i.mode w) :
    s.fetched i = (s.opcodeFetched op i.mnemonic).operandFetched i.mode w := by
  have htwo : s.pc + 1#16 + 1#16 = s.pc + 2#16 := BitVec.add_assoc s.pc 1#16 1#16
  have hthree : s.pc + 2#16 + 1#16 = s.pc + 3#16 := BitVec.add_assoc s.pc 2#16 1#16
  unfold State.fetched
  rw [hbytes]
  cases i.mode with
  | imp => rfl
  | imm1 | imm2 | abs | absi | absj | ind =>
    simp only [State.operandFetched, State.opcodeFetched, State.setCur_pc, State.setIr_pc, State.setPc_pc, htwo, hthree]
    rfl

/-! The statements on single ends (O6 to O10). -/

/-- Settles O10: a stopped core's cycle writes `result` alone; `reset()` writes RUN. -/
theorem stoppedCoreStays : Obligations.StoppedCoreStays := ⟨fun _ h => step_of_stopped h, fun _ => rfl⟩

/-- Settles O8: the declared table answers what the rows do. -/
theorem unassignedOpcodeFaults : Obligations.UnassignedOpcodeFaults := fun _ op hrun hop hlookup => by
  rw [refItab_lookup, Option.map_eq_none_iff] at hlookup
  exact step_of_unassigned hrun hop hlookup

/-- What lookup answers is the descriptor of the row found. -/
theorem findEntry_of_lookup {op : Byte} {d : Descriptor} (h : refItab.lookup op = some d) :
    ∃ e, findEntry op = some e ∧ e.desc = d := by
  rwa [refItab_lookup, Option.map_eq_some_iff] at h

/-- Settles O7: a failing operand byte leaves PC at it and the byte before it in its latch. -/
theorem fetchErrorsFault : Obligations.FetchErrorsFault := by
  refine ⟨fun s k hrun hop => step_of_opcode_fails hrun hop, fun s op d k hrun hop hlookup himp hfirst => ?first,
    fun s op h d k hrun hop hlookup himp himm hfirst hsecond => ?second⟩
  case first =>
    obtain ⟨e, he, rfl⟩ := findEntry_of_lookup hlookup
    exact step_of_operand_fails hrun hop he (fetchOperand_fails_first himp hfirst)
  case second =>
    obtain ⟨e, he, rfl⟩ := findEntry_of_lookup hlookup
    have htwo : s.pc + 2#16 = s.pc + 1#16 + 1#16 := by rw [BitVec.add_assoc]; rfl
    rw [htwo] at hsecond ⊢
    exact step_of_operand_fails hrun hop he
      (fetchOperand_fails_second (s := s.opcodeFetched op e.desc.mnemonic) himp himm hfirst hsecond)

/-- Settles O9: the cycle checks privilege before the operand fetch, and each of the six meanings checks once more. -/
theorem privilegedInUserModeFaults : Obligations.PrivilegedInUserModeFaults := by
  refine ⟨fun s op d hrun hop hlookup hpriv hs => ?cycle, needsPrivilege_iff, fun i hi s hs => ?meaning⟩
  case cycle =>
    obtain ⟨e, he, rfl⟩ := findEntry_of_lookup hlookup
    exact step_of_user hrun hop he hpriv hs
  case meaning => exact exec_privileged_user ((needsPrivilege_iff i).2 hi) hs

/-- Settles O6: the bytes are the encoding of the instruction (O2), so its own row is found and its operand fetched. -/
theorem stepRunsDecodedInstruction : Obligations.StepRunsDecodedInstruction := by
  intro s bs i hrun hfetch hdecode
  obtain rfl : bs = encode i := by simpa using encodeOfDecode bs [] i hdecode
  obtain ⟨e, w, hfind, hdesc, hbuild, hbytes⟩ := TableRow.statement i
  rw [hbytes] at hfetch
  obtain ⟨hop, hoperand⟩ := hfetch
  have hfetched : fetchOperand Config.reference i.mode (s.opcodeFetched e.opcode i.mnemonic) =
      .ok (operandWord i.mode w) (s.fetched i) := by
    rw [fetched_eq s hbytes]
    exact fetchOperand_ok (hoperand.congr (s := s) (t := s.opcodeFetched e.opcode i.mnemonic) rfl rfl)
  rw [step_of_operand hrun hop hfind (by rw [hdesc]; exact hfetched), hbuild]

/-! What an instruction does to RUN and CUR (R111, R310, R311). -/

/-- RUN and CUR in `t` are as in `s`. -/
def SameControl (s t : State) : Prop := t.run = s.run ∧ t.cur = s.cur

theorem SameControl.refl (s : State) : SameControl s s := ⟨rfl, rfl⟩

section parts
variable {c : Config} {s u : State}

theorem SameControl.writeReg16 (r : Reg16) (v : Word) (h : SameControl s u) : SameControl s (u.writeReg16 r v) := by
  cases r <;> exact h

theorem SameControl.writeReg8 (r : Reg8) (v : Byte) (h : SameControl s u) : SameControl s (u.writeReg8 r v) := by
  cases r <;> exact h

theorem writeByte_sameControl (a : Word) (b : Byte) (hu : SameControl s u) : SameControl s (writeByte c a b u).after := by
  rcases writeByte_cases c a b u with ⟨t, ht, h⟩ | ⟨k, -, h⟩ <;> rw [h]
  · rcases busWrite_cases ht with ⟨-, rfl⟩ | ⟨_, _, -, -, rfl⟩ <;> exact hu
  · exact hu

theorem writeWord_sameControl (a v : Word) (hu : SameControl s u) : SameControl s (writeWord c a v u).after :=
  Access.after_andThen (writeByte_sameControl a _ hu) fun _ _ h => writeByte_sameControl _ _ h

theorem push8_sameControl (b : Byte) (hu : SameControl s u) : SameControl s (push8 c b u).after :=
  Access.after_andThen (writeByte_sameControl _ b hu) fun _ _ h => h

theorem push16_sameControl (v : Word) (hu : SameControl s u) : SameControl s (push16 c v u).after :=
  Access.after_andThen (push8_sameControl _ hu) fun _ _ h => push8_sameControl _ h

theorem pop8_sameControl : SameControl s (pop8 c s).after :=
  Access.after_andThen (StepClosed.readByte _ (.refl s)) fun _ _ h => h

theorem pop16_sameControl : SameControl s (pop16 c s).after :=
  Access.after_andThen (StepClosed.readByte _ (.refl s)) fun _ _ h =>
    Access.after_andThen (StepClosed.readByte _ h) fun _ _ h => h

theorem resolve_sameControl (mode : MemMode) (w : Word) : SameControl s (resolve c mode w s).after := by
  rcases resolve_cases c mode w s with ⟨ea, h⟩ | ⟨k, -, h⟩ <;> rw [h] <;> exact .refl s

theorem operand8_sameControl (src : Src8) : SameControl s (operand8 c src s).after := by
  cases src with
  | imm b => exact .refl s
  | mem mode w => exact Access.after_andThen (resolve_sameControl mode w) fun _ _ h => StepClosed.readByte _ h

theorem operand16_sameControl (src : Src16) : SameControl s (operand16 c src s).after := by
  cases src with
  | imm w => exact .refl s
  | mem mode w => exact Access.after_andThen (resolve_sameControl mode w) fun _ _ h => StepClosed.readWord _ h

theorem fetchByte_sameControl (hu : SameControl s u) : SameControl s (fetchByte c u).after :=
  Access.after_andThen (StepClosed.readByte _ hu) fun _ _ h => h

theorem fetchOperand_sameControl (mode : AddrMode) : SameControl s (fetchOperand c mode s).after := by
  cases mode with
  | imp => exact .refl s
  | imm1 => exact Access.after_andThen (fetchByte_sameControl (.refl s)) fun _ _ h => h
  | imm2 | abs | absi | absj | ind =>
    exact Access.after_andThen (fetchByte_sameControl (.refl s)) fun _ _ h =>
      Access.after_andThen (fetchByte_sameControl h) fun _ _ h => h

end parts

/-- The ways an instruction of mnemonic `m` can end from `s`: `Ok` or `Error` with RUN and CUR as they were, `halt` of a
Supervisor, or a fault. -/
inductive EndsAs (m : Mnemonic) (s : State) : Outcome → Prop where
  | ok {t : State} (h : SameControl s t) : EndsAs m s (endsOk m t)
  | error {t : State} (k : ErrorKind) (h : SameControl s t) : EndsAs m s (endsError m k t)
  | halted (hm : m = .halt) (hs : s.supervisor = true) : EndsAs m s (endsOk m (s.setRun .halted))
  | fault (k : ErrorKind) : EndsAs m s (endsFault k s)

section meanings
variable {c : Config} {m : Mnemonic} {s : State}

theorem finish_endsAs {p : Access Unit} (h : SameControl s p.after) : EndsAs m s (finish m p) := by
  cases p with
  | ok v t => exact .ok h
  | err k t => exact .error k h

/-- An instruction that reads an operand, pops or resolves an address, and then does the rest. -/
theorem finish_andThen_endsAs {α : Type} {p : Access α} {rest : α → State → Access Unit} (hp : SameControl s p.after)
    (hrest : ∀ v u, SameControl s u → SameControl s (rest v u).after) : EndsAs m s (finish m (p.andThen rest)) :=
  finish_endsAs (Access.after_andThen hp hrest)

theorem privileged_endsAs {body : State → Outcome} (h : s.supervisor = true → EndsAs m s (body s)) :
    EndsAs m s (privileged s body) := by
  cases hs : s.supervisor with
  | true => rw [privileged_supervisor hs]; exact h hs
  | false => rw [privileged_user hs]; exact .fault _

theorem load16_endsAs {r : Reg16} (src : Src16) : EndsAs m s (load16 c m r src s) :=
  finish_andThen_endsAs (operand16_sameControl src) fun v _ h => h.writeReg16 r v

theorem load8_endsAs {r : Reg8} (src : Src8) : EndsAs m s (load8 c m r src s) :=
  finish_andThen_endsAs (operand8_sameControl src) fun v _ h => h.writeReg8 r v

theorem alu16_endsAs {op : AluOp} {r : Reg16} (src : Src16) : EndsAs m s (alu16 c m op r src s) :=
  finish_andThen_endsAs (operand16_sameControl src) fun _ _ h => h.writeReg16 r _

theorem alu8_endsAs {op : AluOp} {r : Reg8} (src : Src8) : EndsAs m s (alu8 c m op r src s) :=
  finish_andThen_endsAs (operand8_sameControl src) fun _ _ h => h.writeReg8 r _

theorem indexStep_endsAs {op : AluOp} {r : Reg16} : EndsAs m s (indexStep m op r s) :=
  finish_endsAs ((SameControl.refl s).writeReg16 r _)

theorem store16_endsAs {r : Reg16} {mode : MemMode} {w : Word} : EndsAs m s (store16 c m r mode w s) :=
  finish_andThen_endsAs (resolve_sameControl mode w) fun _ _ h => writeWord_sameControl _ _ h

theorem store8_endsAs {r : Reg8} {mode : MemMode} {w : Word} : EndsAs m s (store8 c m r mode w s) :=
  finish_andThen_endsAs (resolve_sameControl mode w) fun _ _ h => writeByte_sameControl _ _ h

theorem transfer_endsAs {x y : Reg16} : EndsAs m s (transfer m x y s) :=
  finish_endsAs ((SameControl.refl s).writeReg16 y _)

theorem transferToSr_endsAs : EndsAs m s (transferToSr m s) := finish_endsAs (.refl s)

theorem transferFromSr_endsAs : EndsAs m s (transferFromSr m s) := finish_endsAs ((SameControl.refl s).writeReg8 .al _)

theorem push_endsAs {r : Reg16} : EndsAs m s (push c m r s) := finish_endsAs (push16_sameControl _ (.refl s))

theorem pushStatus_endsAs : EndsAs m s (pushStatus c m s) := finish_endsAs (push8_sameControl _ (.refl s))

theorem pop_endsAs {r : Reg16} : EndsAs m s (pop c m r s) :=
  finish_andThen_endsAs pop16_sameControl fun v _ h => h.writeReg16 r v

theorem popStatus_endsAs : EndsAs m s (popStatus c m s) := finish_andThen_endsAs pop8_sameControl fun _ _ h => h

theorem jump_endsAs {cond : Cond} (mode : MemMode) (w : Word) : EndsAs m s (jump c m cond mode w s) :=
  finish_andThen_endsAs (resolve_sameControl mode w) fun _ u h => by
    show SameControl s (if cond.holds u.sr then u.setPc u.ar else u)
    split <;> exact h

theorem callTo_endsAs {mode : MemMode} {w : Word} : EndsAs m s (callTo c m mode w s) :=
  finish_andThen_endsAs (resolve_sameControl mode w) fun _ _ h =>
    Access.after_andThen (push16_sameControl _ h) fun _ _ h => h

theorem returnFrom_endsAs : EndsAs m s (returnFrom c m s) := finish_andThen_endsAs pop16_sameControl fun _ _ h => h

theorem writeFlag_endsAs {f : Flag} {v : Bool} : EndsAs m s (writeFlag m f v s) := finish_endsAs (.refl s)

theorem noOperation_endsAs : EndsAs m s (noOperation m s) := finish_endsAs (.refl s)

end meanings

/-- Each instruction by the shared meaning it is made of. -/
theorem exec_endsAs (i : Instr) (s : State) : EndsAs i.mnemonic s (exec i s) := by
  cases i with
  | nop => exact noOperation_endsAs
  | halt => exact privileged_endsAs fun hs => .halted rfl hs
  | clc | sec | clo | cld | sed => exact writeFlag_endsAs
  | cli | sei | cls => exact privileged_endsAs fun _ => writeFlag_endsAs
  | ldaImm2 w | ldbImm2 w | ldiImm2 w | ldjImm2 w | ldspImm2 w => exact load16_endsAs (c := Config.reference) (.imm w)
  | ldaAbs | ldaAbsi | ldaAbsj | ldaInd | ldbAbs | ldiAbs | ldjAbs | ldspAbs => exact load16_endsAs _
  | ldahImm1 b | ldalImm1 b | ldbhImm1 b | ldblImm1 b => exact load8_endsAs (c := Config.reference) (.imm b)
  | ldahAbs | ldalAbs | ldalAbsi | ldalAbsj | ldalInd | ldbhAbs | ldblAbs => exact load8_endsAs _
  | staAbs | staAbsi | staAbsj | staInd | stbAbs | stiAbs | stjAbs => exact store16_endsAs
  | stahAbs | stalAbs | stalAbsi | stalAbsj | stalInd | stbhAbs | stblAbs => exact store8_endsAs
  | tab | tba | tai | tia | taj | tja | tad | tda | tasp | tspa => exact transfer_endsAs
  | tasr => exact privileged_endsAs fun _ => transferToSr_endsAs
  | tsra => exact transferFromSr_endsAs
  | addImm2 w | subImm2 w | andImm2 w | orImm2 w | addbImm2 w | subbImm2 w | andbImm2 w | orbImm2 w =>
    exact alu16_endsAs (c := Config.reference) (.imm w)
  | addAbs | subAbs | andAbs | orAbs | addbAbs | subbAbs | andbAbs | orbAbs => exact alu16_endsAs _
  | addhImm1 b | addlImm1 b | subhImm1 b | sublImm1 b | andlImm1 b | orlImm1 b | addbhImm1 b | addblImm1 b | subbhImm1 b
  | subblImm1 b | andblImm1 b | orblImm1 b => exact alu8_endsAs (c := Config.reference) (.imm b)
  | addhAbs | addlAbs | subhAbs | sublAbs | andlAbs | orlAbs | addbhAbs | addblAbs | subbhAbs | subblAbs | andblAbs
  | orblAbs => exact alu8_endsAs _
  | ini | dei | inj | dej => exact indexStep_endsAs
  | psha | pshb => exact push_endsAs
  | popa | popb => exact pop_endsAs
  | pshsr => exact pushStatus_endsAs
  | popsr => exact privileged_endsAs fun _ => popStatus_endsAs
  | jmpAbs w | jeqAbs w | jneAbs w | jcsAbs w | jccAbs w | jnsAbs w | jncAbs w | josAbs w | jocAbs w | jltAbs w
  | jgeAbs w => exact jump_endsAs (c := Config.reference) .abs w
  | jmpInd w => exact jump_endsAs .ind w
  | callAbs => exact callTo_endsAs
  | ret => exact returnFrom_endsAs

/-! Every step (O11). -/

/-- Everything a step of a Running core can do: fault, or run an instruction with RUN and SR as they were and its mnemonic in
CUR. -/
theorem step_cases {s : State} (hrun : s.run = .running) :
    (∃ k t, step s = endsFault k t) ∨
    ∃ i u, step s = exec i u ∧ u.run = .running ∧ u.cur = some i.mnemonic ∧ u.sr = s.sr := by
  rcases fetchByte_cases Config.reference s with ⟨op, hop, -⟩ | ⟨k, hk, -⟩
  · cases he : findEntry op with
    | none => exact .inl ⟨_, _, step_of_unassigned hrun hop he⟩
    | some e =>
      have hcontrol := fetchOperand_sameControl (c := Config.reference) (s := s.opcodeFetched op e.desc.mnemonic) e.desc.mode
      have hsr := fetchOperand_after_sr Config.reference e.desc.mode (s.opcodeFetched op e.desc.mnemonic)
      cases ho : fetchOperand Config.reference e.desc.mode (s.opcodeFetched op e.desc.mnemonic) with
      | err k t => exact .inl ⟨k, t, step_of_operand_fails hrun hop he ho⟩
      | ok w u =>
        rw [ho] at hcontrol hsr
        obtain ⟨hrun', hcur⟩ := hcontrol
        have hmnemonic : (e.build w).mnemonic = e.desc.mnemonic :=
          congrArg Descriptor.mnemonic (build_descriptor (findEntry_mem he).1 w)
        exact .inr ⟨e.build w, u, step_of_operand hrun hop he ho, hrun'.trans hrun, by rw [hmnemonic]; exact hcur, hsr⟩
  · exact .inl ⟨k, s, step_of_opcode_fails hrun hk⟩

/-- Settles O11: a core that is not Running stays; a Running one faults or ends as its instruction does. -/
theorem everyStepReturnsAResult : Obligations.EveryStepReturnsAResult := by
  intro s
  by_cases hrun : s.run = .running
  · rcases step_cases hrun with ⟨k, t, hstep⟩ | ⟨i, u, hstep, hurun, hucur, husr⟩
    · exact ⟨_, .fault k, hstep, rfl, hrun, rfl⟩
    · have hends := exec_endsAs i u
      rw [← hstep] at hends
      generalize step s = o at hends ⊢
      cases hends with
      | ok h =>
        obtain ⟨htrun, htcur⟩ := h
        exact ⟨_, .ok i.mnemonic, rfl, rfl, hrun, htcur.trans hucur, .inl (htrun.trans hurun)⟩
      | error k h =>
        obtain ⟨htrun, htcur⟩ := h
        exact ⟨_, .error i.mnemonic k, rfl, rfl, hrun, htcur.trans hucur, htrun.trans hurun⟩
      | halted hhalt hs =>
        have hs' : s.supervisor = true := by rw [State.supervisor, ← husr]; exact hs
        exact ⟨_, .ok i.mnemonic, rfl, rfl, hrun, hucur, .inr ⟨rfl, hhalt, hs'⟩⟩
      | fault k => exact ⟨_, .fault k, rfl, rfl, hrun, rfl⟩
  · exact ⟨_, .stopped s.run, step_of_stopped hrun, rfl, rfl, hrun, rfl⟩

end Sys2Proof.Machine
end

section
/-! PROOF of O38, O41 and O56. A failing part ends the instruction in the state it left (`finish_andThen_of_err`, R124);
a store whose address is resolved is its bus writes in order (`store16_at`, `store8_at`). -/

namespace Sys2Proof.Machine

/-- The abort rule (R124), whatever would have followed the failing part. -/
theorem finish_andThen_of_err {α : Type} {p : Access α} {rest : α → State → Access Unit} {m : Mnemonic} {k : ErrorKind}
    {t : State} (h : p = .err k t) : finish m (p.andThen rest) = endsError m k t := by
  rw [h, Access.andThen_err, finish_err_endsError]

/-! Failing operand and pointer reads (O38). -/

/-- Settles O38: the operand is the first part of every load and every operation, and a failing one leaves the latches
alone. -/
theorem operandReadErrors : Obligations.OperandReadErrors := by
  refine ⟨fun p hp s w k h => ?word, fun p hp s w k h => ?byte, fun s w k => ?indexed, fun s w k h => ?pointer,
    fun s w p k hp => ?indirect⟩
  case word =>
    have hoperand := operand16_fails (resolve_abs_at _ w s) h
    fin_cases hp <;> exact finish_andThen_of_err hoperand
  case byte =>
    have hoperand := operand8_fails (resolve_abs_at _ w s) h
    fin_cases hp <;> exact finish_andThen_of_err hoperand
  case indexed =>
    exact ⟨fun h => load16_of_err (operand16_fails (resolve_absi_at _ w s) h),
      fun h => load16_of_err (operand16_fails (resolve_absj_at _ w s) h),
      fun h => load8_of_err (operand8_fails (resolve_absi_at _ w s) h),
      fun h => load8_of_err (operand8_fails (resolve_absj_at _ w s) h)⟩
  case pointer =>
    exact ⟨load16_of_err (operand16_pointer_fails h), load8_of_err (operand8_pointer_fails h)⟩
  case indirect =>
    exact ⟨fun h => load16_of_err (operand16_fails (resolve_ind_at hp) h),
      fun h => load8_of_err (operand8_fails (resolve_ind_at hp) h)⟩

/-! Stores by their bus writes (O41). -/

section stores
variable {m : Mnemonic} {mode : MemMode} {s : State} {w ea : Word}

/-- A word store at a resolved address. -/
theorem store16_at {r : Reg16} (hr : resolve Config.reference mode w s = .ok () (s.atAddress w ea)) :
    store16 Config.reference m r mode w s =
      finish m (writeWord Config.reference ea (s.readReg16 r) (s.atAddress w ea)) := by
  rw [store16, hr, Access.andThen_ok]
  cases r <;> rfl

/-- A byte store at a resolved address. -/
theorem store8_at {r : Reg8} (hr : resolve Config.reference mode w s = .ok () (s.atAddress w ea)) :
    store8 Config.reference m r mode w s =
      finish m (writeByte Config.reference ea (s.readReg8 r) (s.atAddress w ea)) := by
  rw [store8, hr, Access.andThen_ok]
  cases r <;> rfl

/-- A word store at a resolved address, by what its bus writes answer: the second is made only after the first (R65). -/
theorem store16_writes {r : Reg16} (t u : State) (k : ErrorKind)
    (hr : resolve Config.reference mode w s = .ok () (s.atAddress w ea)) :
    (busWrite Config.reference (s.atAddress w ea) ea (hiByte (s.readReg16 r)) = .error k →
      store16 Config.reference m r mode w s = endsError m k (s.atAddress w ea)) ∧
    (busWrite Config.reference (s.atAddress w ea) ea (hiByte (s.readReg16 r)) = .ok t →
      busWrite Config.reference t (ea + 1#16) (loByte (s.readReg16 r)) = .error k →
      store16 Config.reference m r mode w s = endsError m k t) ∧
    (busWrite Config.reference (s.atAddress w ea) ea (hiByte (s.readReg16 r)) = .ok t →
      busWrite Config.reference t (ea + 1#16) (loByte (s.readReg16 r)) = .ok u →
      store16 Config.reference m r mode w s = endsOk m u) := by
  rw [store16_at hr]
  refine ⟨fun h => ?_, fun h1 h2 => ?_, fun h1 h2 => ?_⟩
  · rw [writeWord_err_first h, finish_err_endsError]
  · rw [writeWord_err_second h1 h2, finish_err_endsError]
  · rw [writeWord_ok h1 h2, finish_ok_endsOk]

/-- A byte store at a resolved address, by what its bus write answers. -/
theorem store8_writes {r : Reg8} (t : State) (k : ErrorKind)
    (hr : resolve Config.reference mode w s = .ok () (s.atAddress w ea)) :
    (busWrite Config.reference (s.atAddress w ea) ea (s.readReg8 r) = .error k →
      store8 Config.reference m r mode w s = endsError m k (s.atAddress w ea)) ∧
    (busWrite Config.reference (s.atAddress w ea) ea (s.readReg8 r) = .ok t →
      store8 Config.reference m r mode w s = endsOk m t) := by
  rw [store8_at hr]
  refine ⟨fun h => ?_, fun h => ?_⟩
  · rw [writeByte_err h, finish_err_endsError]
  · rw [writeByte_ok h, finish_ok_endsOk]

end stores

/-- Settles O41: modes ABS, ABSI and ABSJ resolve by definition; in mode IND the pointer read comes before any write. -/
theorem storesOutsideRam : Obligations.StoresOutsideRam := by
  refine ⟨fun q hq s t u w ea v k hea hv => ?word, fun q hq s t w ea k hea => ?byte, fun s w k h => ?pointer,
    fun s t u w p k hp => ?indirect⟩
  case word =>
    subst hea hv
    fin_cases hq <;> exact store16_writes t u k rfl
  case byte =>
    subst hea
    fin_cases hq <;> exact store8_writes t k rfl
  case pointer =>
    have hresolve := resolve_ind_fails h
    exact ⟨finish_andThen_of_err hresolve, finish_andThen_of_err hresolve⟩
  case indirect =>
    have hresolve := resolve_ind_at hp
    obtain ⟨hfirst, hsecond, hboth⟩ := store16_writes (m := .sta) (r := .a) t u k hresolve
    obtain ⟨hfails, hstores⟩ := store8_writes (m := .stal) (r := .al) t k hresolve
    exact ⟨hfirst, hsecond, hboth, hfails, hstores⟩

/-! The indirect jump (O56). -/

/-- Settles O56: the pointer resolves to AR, where `jmp` always goes; a failing pointer read comes first. -/
theorem indirectJump : Obligations.IndirectJump := by
  refine ⟨fun s w p hp => ?taken, fun s w k h => finish_andThen_of_err (resolve_ind_fails h)⟩
  case taken =>
    show jump Config.reference .jmp .always .ind w s = _
    rw [jump, resolve_ind_at hp, Access.andThen_ok]
    rfl

end Sys2Proof.Machine
end


section
/-! PROOF of O35 to O37, O39 and O40. A load is its operand, then one register (`load16_at`, `load8_at`); a store to RAM is
one or two bytes of memory at the effective address (`store16_ram`, `store8_ram`). The mode only says which address. -/

namespace Sys2Proof.Machine

section resolved
variable {m : Mnemonic} {mode : MemMode} {s : State} {w ea : Word}

/-! Loads (O35, O36, O37). -/

/-- A word load at a resolved address from which the bus reads a word (R123, R140). -/
theorem load16_at {r : Reg16} {v : Word} (hr : resolve Config.reference mode w s = .ok () (s.atAddress w ea))
    (h : ReadsWord s ea v) :
    load16 Config.reference m r (.mem mode w) s = endsOk m ((s.atAddress w ea).writeReg16 r v) :=
  load16_of_ok (operand16_at hr h)

/-- A byte load at a resolved address from which the bus reads a byte (R123, R140). -/
theorem load8_at {r : Reg8} {v : Byte} (hr : resolve Config.reference mode w s = .ok () (s.atAddress w ea))
    (h : ReadsByte s ea v) :
    load8 Config.reference m r (.mem mode w) s = endsOk m ((s.atAddress w ea).writeReg8 r v) :=
  load8_of_ok (operand8_at hr h)

/-! Stores to RAM (O39, O40). -/

/-- A word store at a resolved address: both bus writes go to RAM, so they store the word and the state keeps the rest
(R65, R141). -/
theorem store16_ram {r : Reg16} (hr : resolve Config.reference mode w s = .ok () (s.atAddress w ea))
    (hwf : s.mem.wf = true) (hhigh : InRam ea) (hlow : InRam (ea + 1#16)) :
    ∃ mem, store16 Config.reference m r mode w s = endsOk m { s.atAddress w ea with mem := mem } ∧
      WordStored s.mem mem ea (s.readReg16 r) := by
  refine ⟨_, ?_, wordStored_write hwf ea (s.readReg16 r)⟩
  rw [store16_at hr, writeWord_ok (busWrite_of_ram hhigh) (busWrite_of_ram hlow), finish_ok_endsOk]
  rfl

/-- A byte store at a resolved address: the bus write goes to RAM (R141). -/
theorem store8_ram {r : Reg8} (hr : resolve Config.reference mode w s = .ok () (s.atAddress w ea))
    (hwf : s.mem.wf = true) (ha : InRam ea) :
    ∃ mem, store8 Config.reference m r mode w s = endsOk m { s.atAddress w ea with mem := mem } ∧
      ByteStored s.mem mem ea (s.readReg8 r) := by
  obtain ⟨hwrite, hstored⟩ :=
    busWrite_ram_byteStored (s := s.atAddress w ea) (s.readReg8 r) hwf ha
  refine ⟨_, ?_, hstored⟩
  rw [store8_at hr, writeByte_ok hwrite, finish_ok_endsOk]
  rfl

end resolved

/-- Settles O39: by mode, a word store at the address that the mode resolves to. -/
theorem wordStoresInRam : Obligations.WordStoresInRam := by
  refine ⟨fun p hp s w hwf hhigh hlow => ?absolute,
    fun s w hwf hhigh hlow => store16_ram (r := .a) (resolve_absi_at _ w s) hwf hhigh hlow,
    fun s w hwf hhigh hlow => store16_ram (r := .a) (resolve_absj_at _ w s) hwf hhigh hlow,
    fun s w p hwf hp hhigh hlow => store16_ram (r := .a) (resolve_ind_at hp) hwf hhigh hlow⟩
  case absolute =>
    fin_cases hp <;> exact store16_ram (resolve_abs_at _ w s) hwf hhigh hlow

/-- Settles O40: by mode, a byte store at the address that the mode resolves to. -/
theorem byteStoresInRam : Obligations.ByteStoresInRam := by
  refine ⟨fun p hp s w hwf ha => ?absolute,
    fun s w hwf ha => store8_ram (r := .al) (resolve_absi_at _ w s) hwf ha,
    fun s w hwf ha => store8_ram (r := .al) (resolve_absj_at _ w s) hwf ha,
    fun s w p hwf hp ha => store8_ram (r := .al) (resolve_ind_at hp) hwf ha⟩
  case absolute =>
    fin_cases hp <;> exact store8_ram (resolve_abs_at _ w s) hwf ha

/-- Settles O35: an immediate operand never fails, and leaves its bytes in the latches. -/
theorem loadImmediates : Obligations.LoadImmediates := by
  intro s w v
  have hword := operand16_imm Config.reference w s
  have hbyte := operand8_imm Config.reference v s
  exact ⟨load16_of_ok hword, load16_of_ok hword, load16_of_ok hword, load16_of_ok hword, load16_of_ok hword,
    load8_of_ok hbyte, load8_of_ok hbyte, load8_of_ok hbyte, load8_of_ok hbyte⟩

/-- Settles O36: by mode, a word load at the address that the mode resolves to. -/
theorem wordLoadsFromMemory : Obligations.WordLoadsFromMemory := by
  intro s w v p
  have habs := resolve_abs_at Config.reference w s
  exact ⟨load16_at habs, load16_at habs, load16_at habs, load16_at habs, load16_at habs,
    load16_at (resolve_absi_at _ w s), load16_at (resolve_absj_at _ w s),
    fun hp => load16_at (resolve_ind_at hp)⟩

/-- Settles O37: by mode, a byte load at the address that the mode resolves to. -/
theorem byteLoadsFromMemory : Obligations.ByteLoadsFromMemory := by
  intro s w p v
  have habs := resolve_abs_at Config.reference w s
  exact ⟨load8_at habs, load8_at habs, load8_at habs, load8_at habs,
    load8_at (resolve_absi_at _ w s), load8_at (resolve_absj_at _ w s),
    fun hp => load8_at (resolve_ind_at hp)⟩

end Sys2Proof.Machine
end

section
/-! PROOF of O42 and O43. A transfer reads one register and writes one (`transfer_ok`, `transferToSr_ok`,
`transferFromSr_ok`); the instruction only says which. -/

namespace Sys2Proof.Machine

/-- A register transfer never fails: it is one register read and one register write (R170). -/
theorem transfer_ok (m : Mnemonic) (src dst : Reg16) (s : State) :
    transfer m src dst s = endsOk m (s.writeReg16 dst (s.readReg16 src)) := by
  rw [transfer, finish_ok_endsOk]

/-- A transfer to SR writes the whole status byte, with the reserved bit forced (R181, R19). -/
theorem transferToSr_ok (m : Mnemonic) (s : State) :
    transferToSr m s = endsOk m (s.setSr (statusOf (loByte s.a))) := by
  rw [transferToSr, State.readReg8_al, finish_ok_endsOk]

/-- A transfer from SR writes the low half of A and keeps the high half (R182). -/
theorem transferFromSr_ok (m : Mnemonic) (s : State) :
    transferFromSr m s = endsOk m (s.setA (wordOf (hiByte s.a) s.sr)) := by
  rw [transferFromSr, State.writeReg8_al, finish_ok_endsOk]

/-- Settles O42: by instruction, its source and its destination. -/
theorem registerTransfers : Obligations.RegisterTransfers := fun s =>
  ⟨transfer_ok .tab .a .b s, transfer_ok .tba .b .a s, transfer_ok .tai .a .i s, transfer_ok .tia .i .a s,
    transfer_ok .taj .a .j s, transfer_ok .tja .j .a s, transfer_ok .tad .a .dr s, transfer_ok .tda .dr .a s,
    transfer_ok .tasp .a .sp s, transfer_ok .tspa .sp .a s⟩

/-- Settles O43: `tsra` has no privilege check; `tasr` passes its own in Supervisor mode (R290). -/
theorem statusTransfers : Obligations.StatusTransfers := by
  refine ⟨fun s => transferFromSr_ok .tsra s, fun s hs => ?toStatus⟩
  case toStatus =>
    calc exec .tasr s
      _ = transferToSr .tasr s := privileged_supervisor hs
      _ = endsOk .tasr { s with sr := loByte s.a ||| 0x04#8 } := transferToSr_ok .tasr s

end Sys2Proof.Machine
end


section
/-! PROOF of O34 and O44 to O50. The closed forms of the four flagged operations are proved for all widths together
(`addFlagged_…`, `subFlagged_…`, `andFlagged_…`, `orFlagged_…`): an overflow is core's signed overflow of an addition, and
`SUB` is `ADD` of the negated operand. `AluOp.value_eq` and `AluOp.flags_status` then say once what an operation leaves in
its target and in SR, `alu16_closed`, `alu8_closed` and `indexStep_closed` what an instruction of each template leaves in
the state by the way its operand is read; an instruction only says which operation, register and operand. -/

namespace Sys2Proof.Machine

/-! The flagged operations in closed form (R190 to R195). -/

section closedForms
variable {w : Nat} (x y : BitVec w)

/-- Zero and negative as the statements spell them. -/
theorem beq_zero_eq_decide_toNat (r : BitVec w) : (r == 0#w) = decide (r.toNat = 0) := by
  rw [Bool.beq_eq_decide_eq, decide_eq_decide, BitVec.toNat_eq, BitVec.toNat_ofNat, Nat.zero_mod]

theorem addFlagged_result : (addFlagged x y).result = x + y := rfl

/-- The wrapped sum is below the raw sum exactly when the raw sum does not fit (R194). -/
theorem addFlagged_carry : (addFlagged x y).carry = decide (2 ^ w ≤ x.toNat + y.toNat) := by
  simp only [addFlagged, BitVec.toNat_ofNat, decide_eq_decide]
  constructor
  · intro hwraps
    by_contra hfits
    rw [Nat.mod_eq_of_lt (not_le.mp hfits)] at hwraps
    exact lt_irrefl _ hwraps
  · exact fun hcarry => (Nat.mod_lt _ (Nat.two_pow_pos w)).trans_le hcarry

/-- The rule on sign bits is the signed overflow of the addition (R195). -/
theorem addFlagged_overflow : (addFlagged x y).overflow = signedOutOfRange w (x.toInt + y.toInt) := by
  calc (addFlagged x y).overflow
    _ = x.saddOverflow y := (BitVec.saddOverflow_eq x y).symm
    _ = signedOutOfRange w (x.toInt + y.toInt) := Bool.or_comm _ _

theorem addFlagged_zero : (addFlagged x y).zero = decide ((x + y).toNat = 0) := beq_zero_eq_decide_toNat (x + y)

theorem addFlagged_negative : (addFlagged x y).negative = (x + y).msb := rfl

/-- Subtraction adds the negated operand, flags and all (R191). -/
theorem subFlagged_eq_addFlagged_neg : subFlagged x y = addFlagged x (-y) := rfl

theorem subFlagged_result : (subFlagged x y).result = x - y := (BitVec.sub_eq_add_neg x y).symm

/-- No borrow flag: the negated operand is 0 for the operand 0, which gives no carry (R194). -/
theorem subFlagged_carry : (subFlagged x y).carry = decide (y.toNat ≠ 0 ∧ y.toNat ≤ x.toNat) := by
  rw [subFlagged_eq_addFlagged_neg, addFlagged_carry, BitVec.toNat_neg, decide_eq_decide]
  have hx := x.isLt
  have hy := y.isLt
  by_cases hzero : y.toNat = 0
  · rw [hzero, Nat.sub_zero, Nat.mod_self]
    omega
  · rw [Nat.mod_eq_of_lt (by omega)]
    omega

/-- The overflow of a subtraction as that of an addition, the operand negated at the width (R195). -/
theorem subFlagged_overflow : (subFlagged x y).overflow = signedOutOfRange w (x.toInt + (-y).toInt) := by
  rw [subFlagged_eq_addFlagged_neg, addFlagged_overflow]

/-- The overflow of a subtraction but for the most negative operand, which is its own negation (R195). -/
theorem subFlagged_overflow_eq_ite (hw : 0 < w) :
    (subFlagged x y).overflow =
      if y.toNat = 2 ^ (w - 1) then x.msb && !(x - y).msb else signedOutOfRange w (x.toInt - y.toInt) := by
  have hmin : y.toNat = 2 ^ (w - 1) ↔ y = BitVec.intMin w := by
    rw [BitVec.toNat_eq, BitVec.toNat_intMin_of_pos hw]
  simp only [hmin]
  split
  next hy =>
    have hsign : (-y).msb = true := by rw [hy, BitVec.neg_intMin, BitVec.msb_intMin, decide_eq_true hw]
    calc (subFlagged x y).overflow
      _ = (x.msb == (-y).msb && (x + -y).msb != x.msb) := rfl
      _ = (x.msb && !(x - y).msb) := by rw [hsign, ← BitVec.sub_eq_add_neg]; cases x.msb <;> simp
  next hy => rw [subFlagged_overflow, BitVec.toInt_neg_of_ne_intMin hy, Int.sub_eq_add_neg]

theorem subFlagged_zero : (subFlagged x y).zero = decide ((x - y).toNat = 0) := by
  rw [subFlagged_eq_addFlagged_neg, addFlagged_zero, BitVec.sub_eq_add_neg]

/-- A difference is 0 exactly when the operands are equal. -/
theorem toNat_sub_eq_zero_iff : (x - y).toNat = 0 ↔ x.toNat = y.toNat := by
  rw [← BitVec.toNat_eq, ← sub_eq_zero (a := x), BitVec.toNat_eq]
  rfl

theorem subFlagged_negative : (subFlagged x y).negative = (x - y).msb := by
  rw [subFlagged_eq_addFlagged_neg, addFlagged_negative, BitVec.sub_eq_add_neg]

theorem andFlagged_result : (andFlagged x y).result = x &&& y := rfl

theorem andFlagged_zero : (andFlagged x y).zero = decide ((x &&& y).toNat = 0) := beq_zero_eq_decide_toNat (x &&& y)

theorem andFlagged_negative : (andFlagged x y).negative = (x &&& y).msb := rfl

theorem orFlagged_result : (orFlagged x y).result = x ||| y := rfl

theorem orFlagged_zero : (orFlagged x y).zero = decide ((x ||| y).toNat = 0) := beq_zero_eq_decide_toNat (x ||| y)

theorem orFlagged_negative : (orFlagged x y).negative = (x ||| y).msb := rfl

/-- A disjunction is 0 exactly when both operands are. -/
theorem toNat_or_eq_zero_iff : (x ||| y).toNat = 0 ↔ x.toNat = 0 ∧ y.toNat = 0 := by
  rw [BitVec.toNat_or, Nat.or_eq_zero_iff]

end closedForms

/-- Settles O34: the closed forms at every width, here at the two of the Register Bank. -/
theorem flaggedOperationsClosedForms : Obligations.FlaggedOperationsClosedForms := by
  intro w _ x y
  simp only [← BitVec.msb_eq_getLsbD_last, ← BitVec.msb_and, ← BitVec.msb_or, ← toNat_sub_eq_zero_iff,
    ← toNat_or_eq_zero_iff]
  exact ⟨addFlagged_result x y, addFlagged_carry x y, addFlagged_overflow x y, addFlagged_zero x y,
    addFlagged_negative x y, subFlagged_result x y, subFlagged_carry x y, subFlagged_overflow x y, subFlagged_zero x y,
    subFlagged_negative x y, andFlagged_result x y, andFlagged_zero x y, andFlagged_negative x y, orFlagged_result x y,
    orFlagged_zero x y, orFlagged_negative x y⟩

/-! What an operation leaves in its target and in SR. -/

/-- The closed form of an operation's result. -/
def AluOp.closedValue {w : Nat} (op : AluOp) (x y : BitVec w) : BitVec w :=
  match op with
  | .add => x + y
  | .sub => x - y
  | .and => x &&& y
  | .or => x ||| y

/-- SR before and after an operation, in closed form: what `AluOp.status` leaves (`AluOp.flags_status`). -/
def AluOp.Flags {w : Nat} (op : AluOp) (x y : BitVec w) (sr sr' : Byte) : Prop :=
  match op with
  | .add => AddFlags x y sr sr'
  | .sub => SubFlags x y sr sr'
  | .and => LogicFlags (x &&& y) sr sr'
  | .or => LogicFlags (x ||| y) sr sr'

section operations
variable {w : Nat} (op : AluOp) (x y : BitVec w) (sr : Byte)

theorem AluOp.value_eq : op.value x y = op.closedValue x y := by
  cases op with
  | add => exact addFlagged_result x y
  | sub => exact subFlagged_result x y
  | and => exact andFlagged_result x y
  | or => exact orFlagged_result x y

/-- Every operation keeps I, D, S and the reserved bit (R197). -/
theorem AluOp.status_keepsSystemBits : KeepsSystemBits sr (op.status x y sr) :=
  ⟨op.status_getFlag x y sr .i (by simp), op.status_getFlag x y sr .d (by simp), op.status_getFlag x y sr .s (by simp),
    op.reservedBit_status x y sr⟩

theorem zeroNegativeOf_setCONZ {r : BitVec w} {f : ArithResult w} (hz : f.zero = decide (r.toNat = 0))
    (hn : f.negative = r.msb) :
    ZeroNegativeOf r (setCONZ f sr) :=
  ⟨(getFlag_setCONZ f sr .z).trans hz, (getFlag_setCONZ f sr .n).trans hn⟩

theorem zeroNegativeOf_setZN {r : BitVec w} {f : LogicResult w} (hz : f.zero = decide (r.toNat = 0))
    (hn : f.negative = r.msb) :
    ZeroNegativeOf r (setZN f sr) :=
  ⟨(getFlag_setZN f sr .z).trans hz, (getFlag_setZN f sr .n).trans hn⟩

/-- The flags that an operation writes are the closed forms of its own; add and sub write four, and and or two (R197). -/
theorem AluOp.flags_status (hw : 0 < w) : op.Flags x y sr (op.status x y sr) := by
  have hsystem := op.status_keepsSystemBits x y sr
  cases op with
  | add =>
    exact ⟨(getFlag_setCONZ _ sr .c).trans (addFlagged_carry x y),
      (getFlag_setCONZ _ sr .o).trans (addFlagged_overflow x y),
      zeroNegativeOf_setCONZ sr (addFlagged_zero x y) (addFlagged_negative x y), hsystem⟩
  | sub =>
    exact ⟨(getFlag_setCONZ _ sr .c).trans (subFlagged_carry x y),
      (getFlag_setCONZ _ sr .o).trans (subFlagged_overflow_eq_ite x y hw),
      zeroNegativeOf_setCONZ sr (subFlagged_zero x y) (subFlagged_negative x y), hsystem⟩
  | and =>
    exact ⟨zeroNegativeOf_setZN sr (andFlagged_zero x y) (andFlagged_negative x y),
      getFlag_setZN _ sr .c, getFlag_setZN _ sr .o, hsystem⟩
  | or =>
    exact ⟨zeroNegativeOf_setZN sr (orFlagged_zero x y) (orFlagged_negative x y),
      getFlag_setZN _ sr .c, getFlag_setZN _ sr .o, hsystem⟩

end operations

/-! The templates (R199, R220 to R223). -/

section templates
variable {c : Config} {m : Mnemonic} {op : AluOp} {s t : State}

/-- A 16-bit operation whose operand is known: its target and SR in closed form, the rest as the operand left it. -/
theorem alu16_closed {r : Reg16} {src : Src16} {v : Word} (h : operand16 c src s = .ok v t) :
    ∃ sr, alu16 c m op r src s = endsOk m ((t.writeReg16 r (op.closedValue (t.readReg16 r) v)).setSr sr) ∧
      op.Flags (t.readReg16 r) v t.sr sr :=
  ⟨_, by rw [alu16_of_ok h, AluOp.value_eq], op.flags_status (t.readReg16 r) v t.sr (by decide)⟩

/-- An 8-bit operation whose operand is known: its half and SR in closed form, the rest as the operand left it (R198). -/
theorem alu8_closed {r : Reg8} {src : Src8} {v : Byte} (h : operand8 c src s = .ok v t) :
    ∃ sr, alu8 c m op r src s = endsOk m ((t.writeReg8 r (op.closedValue (t.readReg8 r) v)).setSr sr) ∧
      op.Flags (t.readReg8 r) v t.sr sr :=
  ⟨_, by rw [alu8_of_ok h, AluOp.value_eq], op.flags_status (t.readReg8 r) v t.sr (by decide)⟩

theorem alu16_imm_closed {r : Reg16} {w : Word} :
    ∃ sr, alu16 Config.reference m op r (.imm w) s =
        endsOk m (((s.withImm2 w).writeReg16 r (op.closedValue ((s.withImm2 w).readReg16 r) w)).setSr sr) ∧
      op.Flags ((s.withImm2 w).readReg16 r) w s.sr sr :=
  alu16_closed (operand16_imm _ w s)

theorem alu16_abs_closed {r : Reg16} {w v : Word} (h : ReadsWord s w v) :
    ∃ sr, alu16 Config.reference m op r (.mem .abs w) s =
        endsOk m (((s.atAddress w w).writeReg16 r (op.closedValue ((s.atAddress w w).readReg16 r) v)).setSr sr) ∧
      op.Flags ((s.atAddress w w).readReg16 r) v s.sr sr :=
  alu16_closed (operand16_at (resolve_abs_at _ w s) h)

theorem alu8_imm_closed {r : Reg8} {v : Byte} :
    ∃ sr, alu8 Config.reference m op r (.imm v) s =
        endsOk m (((s.withImm1 v).writeReg8 r (op.closedValue ((s.withImm1 v).readReg8 r) v)).setSr sr) ∧
      op.Flags ((s.withImm1 v).readReg8 r) v s.sr sr :=
  alu8_closed (operand8_imm _ v s)

theorem alu8_abs_closed {r : Reg8} {w : Word} {v : Byte} (h : ReadsByte s w v) :
    ∃ sr, alu8 Config.reference m op r (.mem .abs w) s =
        endsOk m (((s.atAddress w w).writeReg8 r (op.closedValue ((s.atAddress w w).readReg8 r) v)).setSr sr) ∧
      op.Flags ((s.atAddress w w).readReg8 r) v s.sr sr :=
  alu8_closed (operand8_at (resolve_abs_at _ w s) h)

/-- An index step has no operand to read: it always completes. -/
theorem indexStep_closed {r : Reg16} :
    ∃ sr, indexStep m op r s = endsOk m ((s.writeReg16 r (op.closedValue (s.readReg16 r) 1#16)).setSr sr) ∧
      op.Flags (s.readReg16 r) 1#16 s.sr sr :=
  ⟨_, by rw [indexStep, finish_ok_endsOk, AluOp.value_eq], op.flags_status (s.readReg16 r) 1#16 s.sr (by decide)⟩

end templates

/-! The instructions by accumulator and mode. -/

/-- Settles O44: `AluOp.add` on A, then on B, each immediate and absolute. -/
theorem wordAdditions : Obligations.WordAdditions := fun _ _ _ =>
  ⟨alu16_imm_closed, alu16_abs_closed, alu16_imm_closed, alu16_abs_closed⟩

/-- Settles O45: `AluOp.sub` on A, then on B, each immediate and absolute. -/
theorem wordSubtractions : Obligations.WordSubtractions := fun _ _ _ =>
  ⟨alu16_imm_closed, alu16_abs_closed, alu16_imm_closed, alu16_abs_closed⟩

/-- Settles O46: `AluOp.and` and `AluOp.or` on A, then on B, each immediate and absolute. -/
theorem wordLogic : Obligations.WordLogic := fun _ _ _ =>
  ⟨alu16_imm_closed, alu16_abs_closed, alu16_imm_closed, alu16_abs_closed,
    alu16_imm_closed, alu16_abs_closed, alu16_imm_closed, alu16_abs_closed⟩

/-- Settles O47: `AluOp.add` on AH, AL, BH and BL, each immediate and absolute. -/
theorem halfAdditions : Obligations.HalfAdditions := fun _ _ _ =>
  ⟨alu8_imm_closed, alu8_abs_closed, alu8_imm_closed, alu8_abs_closed,
    alu8_imm_closed, alu8_abs_closed, alu8_imm_closed, alu8_abs_closed⟩

/-- Settles O48: `AluOp.sub` on AH, AL, BH and BL, each immediate and absolute. -/
theorem halfSubtractions : Obligations.HalfSubtractions := fun _ _ _ =>
  ⟨alu8_imm_closed, alu8_abs_closed, alu8_imm_closed, alu8_abs_closed,
    alu8_imm_closed, alu8_abs_closed, alu8_imm_closed, alu8_abs_closed⟩

/-- Settles O49: `AluOp.and` and `AluOp.or` on AL, then on BL, each immediate and absolute. -/
theorem halfLogic : Obligations.HalfLogic := fun _ _ _ =>
  ⟨alu8_imm_closed, alu8_abs_closed, alu8_imm_closed, alu8_abs_closed,
    alu8_imm_closed, alu8_abs_closed, alu8_imm_closed, alu8_abs_closed⟩

/-- Settles O50: a step up is an addition of 1, a step down a subtraction of 1. -/
theorem indexSteps : Obligations.IndexSteps := fun _ =>
  ⟨indexStep_closed, indexStep_closed, indexStep_closed, indexStep_closed⟩

end Sys2Proof.Machine
end


section
/-! PROOF of O51 to O54. `push16_ram` and `push8_ram` say what a push leaves in RAM. In any region a push is its bus
writes in order: `push16_ok` and `push8_ok` when the bus accepts them, `push16_err_first`, `push16_err_second` and
`push8_err` when it does not; a call is a push between its effective address and its jump (`exec_callAbs`). A pop changes
nothing before its reads have succeeded (`pop16_ok`, `pop16_err`). -/

namespace Sys2Proof.Machine

variable {m : Mnemonic} {s t : State} {k : ErrorKind}

theorem finish_of_ok {p : Access Unit} (h : p = .ok () t) : finish m p = endsOk m t := by
  rw [h, finish_ok_endsOk]

theorem finish_of_err {p : Access Unit} (h : p = .err k t) : finish m p = endsError m k t := by
  rw [h, finish_err_endsError]

/-! Pushes to RAM (O51). -/

/-- `push16` to RAM stores the word at SP, high byte first, and advances SP past it (R240, R241). -/
theorem push16_ram (v : Word) (hwf : s.mem.wf = true) (hhigh : InRam s.sp) (hlow : InRam (s.sp + 1#16)) :
    ∃ mem, push16 Config.reference v s = .ok () { s with sp := s.sp + 2#16, mem := mem } ∧
      WordStored s.mem mem s.sp v := by
  have hpush := push16_ok (v := v) (busWrite_of_ram hhigh) (busWrite_of_ram hlow)
  exact ⟨_, hpush, wordStored_write hwf s.sp v⟩

/-- `push8` to RAM stores the byte at SP and advances SP past it (R240, R241). -/
theorem push8_ram (b : Byte) (hwf : s.mem.wf = true) (ha : InRam s.sp) :
    ∃ mem, push8 Config.reference b s = .ok () { s with sp := s.sp + 1#16, mem := mem } ∧
      ByteStored s.mem mem s.sp b := by
  obtain ⟨hwrite, hstored⟩ := busWrite_ram_byteStored b hwf ha
  have hpush := push8_ok hwrite
  exact ⟨_, hpush, hstored⟩

/-- A register push to RAM (R242, R244). -/
theorem push_ram {r : Reg16} (hwf : s.mem.wf = true) (hhigh : InRam s.sp) (hlow : InRam (s.sp + 1#16)) :
    ∃ mem, push Config.reference m r s = endsOk m { s with sp := s.sp + 2#16, mem := mem } ∧
      WordStored s.mem mem s.sp (s.readReg16 r) := by
  obtain ⟨mem, hpush, hstored⟩ := push16_ram (s.readReg16 r) hwf hhigh hlow
  exact ⟨mem, finish_of_ok hpush, hstored⟩

/-- Settles O51: a push to RAM of A, of B and of SR. -/
theorem pushesInRam : Obligations.PushesInRam := by
  refine ⟨fun s hwf hhigh hlow => ⟨push_ram (r := .a) hwf hhigh hlow, push_ram (r := .b) hwf hhigh hlow⟩,
    fun s hwf ha => ?status⟩
  case status =>
    obtain ⟨mem, hpush, hstored⟩ := push8_ram s.sr hwf ha
    exact ⟨mem, finish_of_ok hpush, hstored⟩

/-! Pops (O52). -/

/-- A register pop whose two bytes the bus reads (R243, R245). -/
theorem pop_of_reads {r : Reg16} {h l : Byte} (hl : ReadsByte s (s.sp - 1#16) l) (hh : ReadsByte s (s.sp - 2#16) h) :
    pop Config.reference m r s = endsOk m ((s.setSp (s.sp - 2#16)).writeReg16 r (wordOf h l)) := by
  rw [pop, pop16_ok hl hh, Access.andThen_ok, finish_ok_endsOk]

/-- `popsr` past its privilege check (R247, R290). -/
theorem exec_popsr_supervisor (hs : s.supervisor = true) :
    exec .popsr s = popStatus Config.reference .popsr s := privileged_supervisor hs

/-- Settles O52: a pop of two readable bytes into A or B, of one into SR past the privilege check. -/
theorem pops : Obligations.Pops := by
  refine ⟨fun s h l hl hh => ⟨pop_of_reads (r := .a) hl hh, pop_of_reads (r := .b) hl hh⟩, fun s b hs hb => ?status⟩
  case status =>
    calc exec .popsr s
      _ = popStatus Config.reference .popsr s := exec_popsr_supervisor hs
      _ = endsOk .popsr ((s.setSp (s.sp - 1#16)).setSr (statusOf b)) := by
        rw [popStatus, pop8_ok hb, Access.andThen_ok, finish_ok_endsOk]

/-! Calls (O53, O54). -/

/-- An absolute call resolves its target, pushes PC, and jumps only after the push (R267). -/
theorem exec_callAbs (w : Word) (s : State) :
    exec (.callAbs w) s =
      finish .call ((push16 Config.reference s.pc (s.atAddress w w)).andThen fun _ t => .ok () (t.setPc t.ar)) := rfl

/-- A bus write leaves AR (R61), so a call jumps to the address it resolved before its push. -/
theorem busWrite_ar {c : Config} {a : Word} {b : Byte} (h : busWrite c s a b = .ok t) : t.ar = s.ar := by
  rcases busWrite_cases h with ⟨-, rfl⟩ | ⟨_, _, -, -, rfl⟩ <;> rfl

/-- A call whose two bus writes are accepted (R267). -/
theorem exec_callAbs_of_writes {u : State} {w : Word}
    (h1 : busWrite Config.reference (s.atAddress w w) s.sp (hiByte s.pc) = .ok t)
    (h2 : busWrite Config.reference (t.setSp (s.sp + 1#16)) (s.sp + 1#16) (loByte s.pc) = .ok u) :
    exec (.callAbs w) s = endsOk .call ((u.setSp (s.sp + 2#16)).setPc w) := by
  have har : u.ar = w := (busWrite_ar h2).trans (busWrite_ar h1)
  have hpush := push16_ok (s := s.atAddress w w) h1 h2
  rw [exec_callAbs, hpush, Access.andThen_ok, State.setSp_ar, har, finish_ok_endsOk]
  rfl

/-! Failing writes and reads (O53). -/

/-- Settles O53: a push ends at its first failing bus write and a call ends with its push (R124); a pop changes SP only
after its reads. -/
theorem stackErrors : Obligations.StackErrors := by
  refine ⟨fun p hp s t k => ?push, fun s k h => finish_of_err (push8_err h), fun s t w k => ?call,
    fun p hp s k h => ?pop, fun s k hs h => ?popStatus⟩
  case push =>
    fin_cases hp <;>
      exact ⟨fun h => finish_of_err (push16_err_first h), fun h1 h2 => finish_of_err (push16_err_second h1 h2)⟩
  case call =>
    rw [exec_callAbs]
    exact ⟨fun h => finish_andThen_of_err (push16_err_first (s := s.atAddress w w) h),
      fun h1 h2 => finish_andThen_of_err (push16_err_second (s := s.atAddress w w) h1 h2)⟩
  case pop =>
    have hpop := pop16_err h
    fin_cases hp <;> exact finish_andThen_of_err hpop
  case popStatus =>
    rw [exec_popsr_supervisor hs]
    exact finish_andThen_of_err (pop8_err h)

/-! Accepted writes, in any region (O54). -/

/-- Settles O54: a push whose bus writes are accepted, which leave SP to the push itself (`busWrite_sp`); a call by
its push. -/
theorem pushesOutsideRam : Obligations.PushesOutsideRam := by
  refine ⟨fun p hp s t u h1 h2 => ?push, fun s t h => ?status, fun s t u w => exec_callAbs_of_writes⟩
  case push =>
    have hpush := push16_ok h1 h2
    fin_cases hp <;> exact finish_of_ok hpush
  case status =>
    have hpush := push8_ok h
    rw [busWrite_sp h] at hpush
    exact finish_of_ok hpush

end Sys2Proof.Machine
end

section
/-! PROOF of O55 and O57. An absolute jump resolves its target, then goes there or leaves PC (`jump_abs_taken`,
`jump_abs_not_taken`); the instruction only says which flags decide. A call is a push and a jump (`exec_callAbs_ram`);
`ret` undoes it because the bus reads the pushed bytes back from RAM (`exec_ret_of_wordStored`). -/

namespace Sys2Proof.Machine

variable {m : Mnemonic} {s t : State} {a w : Word}

/-! Absolute jumps (O55). -/

section jumps
variable {cond : Cond}

/-- Resolving an address leaves SR, which a jump then tests (R255). -/
theorem State.atAddress_sr (w ea : Word) (s : State) : (s.atAddress w ea).sr = s.sr := rfl

/-- An absolute jump whose condition holds goes to its target (R255). -/
theorem jump_abs_taken (h : cond.holds s.sr = true) :
    jump Config.reference m cond .abs w s = endsOk m { s.atAddress w w with pc := w } := by
  rw [jump, resolve_abs_at, Access.andThen_ok, State.atAddress_sr, if_pos h, finish_ok_endsOk]
  rfl

/-- An absolute jump whose condition fails leaves PC; the latches and AR are written all the same (R255). -/
theorem jump_abs_not_taken (h : ¬ cond.holds s.sr = true) :
    jump Config.reference m cond .abs w s = endsOk m (s.atAddress w w) := by
  rw [jump, resolve_abs_at, Access.andThen_ok, State.atAddress_sr, if_neg h, finish_ok_endsOk]

/-- An absolute jump, by a test that says when its condition holds (R255). -/
theorem jump_abs_of_iff {test : Prop} [Decidable test] (h : cond.holds s.sr = true ↔ test) :
    jump Config.reference m cond .abs w s =
      endsOk m { s.atAddress w w with pc := if test then w else s.pc } := by
  by_cases htest : test
  · rw [if_pos htest]
    exact jump_abs_taken (h.mpr htest)
  · rw [if_neg htest]
    exact jump_abs_not_taken (mt h.mp htest)

/-- An absolute jump that tests one bit of SR for 1 (R257, R259, R261, R263). -/
theorem jump_abs_if_set {n : Nat} (h : cond.holds s.sr = s.sr.getLsbD n) :
    jump Config.reference m cond .abs w s =
      endsOk m { s.atAddress w w with pc := if s.sr.getLsbD n = true then w else s.pc } :=
  jump_abs_of_iff (by rw [h])

/-- An absolute jump that tests one bit of SR for 0 (R258, R260, R262, R264). -/
theorem jump_abs_if_clear {n : Nat} (h : cond.holds s.sr = !s.sr.getLsbD n) :
    jump Config.reference m cond .abs w s =
      endsOk m { s.atAddress w w with pc := if s.sr.getLsbD n = false then w else s.pc } :=
  jump_abs_of_iff (by rw [h, Bool.not_eq_true'])

end jumps

/-- Settles O55: `jmp` always jumps, eight jumps test one flag, and `jlt` and `jge` compare N with O. -/
theorem jumps : Obligations.Jumps := fun _ _ =>
  ⟨jump_abs_taken (cond := .always) rfl,
    jump_abs_if_set (cond := .zero) rfl, jump_abs_if_clear (cond := .notZero) rfl,
    jump_abs_if_set (cond := .carry) rfl, jump_abs_if_clear (cond := .notCarry) rfl,
    jump_abs_if_set (cond := .negative) rfl, jump_abs_if_clear (cond := .notNegative) rfl,
    jump_abs_if_set (cond := .overflow) rfl, jump_abs_if_clear (cond := .notOverflow) rfl,
    jump_abs_of_iff (cond := .less) bne_iff_ne, jump_abs_of_iff (cond := .greaterEqual) beq_iff_eq⟩

/-! Call and return (O57). -/

/-- The bus reads RAM from the memory (R60). -/
theorem readsByte_of_ram (ha : InRam a) : ReadsByte s a (s.mem.read a.toNat) :=
  busRead_of_not_port (ha.imp_right And.left)

/-- A call to RAM stores the return address at SP and goes to its target (R267, R241). -/
theorem exec_callAbs_ram (w : Word) (hwf : s.mem.wf = true) (hhigh : InRam s.sp) (hlow : InRam (s.sp + 1#16)) :
    ∃ mem, exec (.callAbs w) s = endsOk .call { s.atAddress w w with sp := s.sp + 2#16, pc := w, mem := mem } ∧
      WordStored s.mem mem s.sp s.pc := by
  obtain ⟨mem, hpush, hstored⟩ := push16_ram (s := s.atAddress w w) s.pc hwf hhigh hlow
  refine ⟨mem, ?_, hstored⟩
  rw [exec_callAbs, hpush, Access.andThen_ok, finish_ok_endsOk]
  rfl

/-- A return whose two bytes the bus reads (R268). -/
theorem exec_ret_of_reads {h l : Byte} (hl : ReadsByte s (s.sp - 1#16) l) (hh : ReadsByte s (s.sp - 2#16) h) :
    exec .ret s = endsOk .ret { s with pc := wordOf h l, sp := s.sp - 2#16 } := by
  show returnFrom Config.reference .ret s = _
  rw [returnFrom, pop16_ok hl hh, Access.andThen_ok, finish_ok_endsOk]
  rfl

/-- A return goes to the word that was stored in RAM just below SP (R268). -/
theorem exec_ret_of_wordStored {before : Memory} {v : Word} (hstored : WordStored before t.mem a v)
    (hsp : t.sp = a + 2#16) (hhigh : InRam a) (hlow : InRam (a + 1#16)) :
    exec .ret t = endsOk .ret { t with pc := v, sp := a } := by
  obtain ⟨-, hreadHigh, hreadLow, -⟩ := hstored
  have hsp1 : t.sp - 1#16 = a + 1#16 := by rw [hsp]; bv_omega
  have hsp2 : t.sp - 2#16 = a := by rw [hsp]; bv_omega
  have hl : ReadsByte t (t.sp - 1#16) (loByte v) := by
    rw [hsp1, ← hreadLow]
    exact readsByte_of_ram hlow
  have hh : ReadsByte t (t.sp - 2#16) (hiByte v) := by
    rw [hsp2, ← hreadHigh]
    exact readsByte_of_ram hhigh
  rw [exec_ret_of_reads hl hh, wordOf_hiByte_loByte, hsp2]

/-- Settles O57: the return reads the word that the call stored. -/
theorem callAndReturn : Obligations.CallAndReturn := by
  refine ⟨fun s w hwf hhigh hlow => ?pair, fun s h l => exec_ret_of_reads⟩
  case pair =>
    obtain ⟨mem, hcall, hstored⟩ := exec_callAbs_ram w hwf hhigh hlow
    exact ⟨mem, hcall, hstored, _, exec_ret_of_wordStored hstored rfl hhigh hlow, rfl, rfl⟩

end Sys2Proof.Machine
end

section
/-! PROOF of O58 and O59. Clearing a flag is one `and` and setting it one `or` with the mask of its bit
(`writeFlag_clears`, `writeFlag_sets`); the instruction only says which flag. The Supervisor mode instructions do the
same past their privilege check (`privileged_supervisor`). -/

namespace Sys2Proof.Machine

variable {f : Flag} {mask : Byte}

/-! A flag write as a mask (R20). -/

theorem setFlag_false (hmask : ~~~(1#8 <<< f.bit) = mask) (sr : Byte) : setFlag f false sr = sr &&& mask := by
  rw [setFlag, if_neg Bool.false_ne_true, hmask]

theorem setFlag_true (hmask : 1#8 <<< f.bit = mask) (sr : Byte) : setFlag f true sr = sr ||| mask := by
  rw [setFlag, if_pos rfl, hmask]

/-! The ends of the instructions (R280 to R289). -/

/-- A clearing instruction keeps the bits of its mask and everything else but SR. -/
theorem writeFlag_clears (hmask : ~~~(1#8 <<< f.bit) = mask) (m : Mnemonic) (s : State) :
    writeFlag m f false s = endsOk m { s with sr := s.sr &&& mask } := by
  rw [writeFlag, finish_ok_endsOk, setFlag_false hmask]
  rfl

/-- A setting instruction adds the bit of its mask and keeps everything else but SR. -/
theorem writeFlag_sets (hmask : 1#8 <<< f.bit = mask) (m : Mnemonic) (s : State) :
    writeFlag m f true s = endsOk m { s with sr := s.sr ||| mask } := by
  rw [writeFlag, finish_ok_endsOk, setFlag_true hmask]
  rfl

theorem noOperation_ok (m : Mnemonic) (s : State) : noOperation m s = endsOk m s := by
  rw [noOperation, finish_ok_endsOk]

/-- Halting writes RUN alone (R289). -/
theorem haltCore_ok (m : Mnemonic) (s : State) : haltCore m s = endsOk m { s with run := .halted } := by
  rw [haltCore, finish_ok_endsOk]
  rfl

/-- Settles O58: by instruction, the mask of its flag; `nop` has none. -/
theorem flagInstructions : Obligations.FlagInstructions := fun s =>
  ⟨writeFlag_clears (f := .c) rfl .clc s, writeFlag_sets (f := .c) rfl .sec s, writeFlag_clears (f := .o) rfl .clo s,
    writeFlag_clears (f := .d) rfl .cld s, writeFlag_sets (f := .d) rfl .sed s, noOperation_ok .nop s⟩

/-- Settles O59: each passes its privilege check in Supervisor mode (R290), then writes its flag or RUN. -/
theorem supervisorInstructions : Obligations.SupervisorInstructions := fun s hs =>
  ⟨(privileged_supervisor hs).trans (writeFlag_clears (f := .i) rfl .cli s),
    (privileged_supervisor hs).trans (writeFlag_sets (f := .i) rfl .sei s),
    (privileged_supervisor hs).trans (writeFlag_clears (f := .s) rfl .cls s),
    (privileged_supervisor hs).trans (haltCore_ok .halt s)⟩

end Sys2Proof.Machine
end

section
/-! PROOF of O14, O22 and O23. The two ways into Supervisor mode are `reset()` and a status byte written by an instruction
that was in it (`StatusWrite`); what `reset()` writes is a literal but for SR, whose flags `getFlag_resetStatus` gives. -/

namespace Sys2Proof.Machine

/-! User mode (O14). -/

/-- In User mode an instruction writes only status bytes with S clear: those that could set it need S (R115). -/
theorem StatusWrite.userMode {s : State} {v : Byte} (h : StatusWrite s v) (hs : getFlag .s s.sr = false) :
    getFlag .s v = false := by
  cases h with
  | alu op a b => rw [op.status_getFlag a b s.sr .s (.inl rfl), hs]
  | flag f b hf =>
    have hne : Flag.s ≠ f := by rcases hf with rfl | rfl | rfl <;> decide
    rw [getFlag_setFlag_other f .s hne, hs]
  | system _ _ hsupervisor | whole _ hsupervisor => rw [hs] at hsupervisor; cases hsupervisor

/-- No update of a step sets S in User mode. -/
theorem userMode_closed (c : Config) : StepClosed c fun s => s.supervisor = false :=
  .of_status_memory_video (P := fun sr _ _ => getFlag .s sr = false) (fun _ _ hw hs => hw.userMode hs)
    fun s t _ _ hw hs => by
      have hsr : t.sr = s.sr := congrArg Bank.sr (busWrite_bank hw)
      rwa [hsr]

/-- Settles O14: a step is a chain of updates that each leave S clear; `reset()` sets it. -/
theorem userModeIsNeverLeft : Obligations.UserModeIsNeverLeft :=
  ⟨fun _ t hs ht => step_closed (userMode_closed Config.reference) hs t ht, fun s => getFlag_resetStatus .s s.sr⟩

/-! What `reset()` leaves (O22, O23). -/

/-- The two forms of the SR rule of R360 agree where the reserved bit is 1. -/
theorem resetStatus_eq_setFlag {sr : Byte} (h : StatusValid sr) :
    resetStatus sr = setFlag .s true (setFlag .z false (setFlag .c false (setFlag .n false (setFlag .o false sr)))) := by
  refine status_ext (fun f => ?_) ?_
  · rw [getFlag_resetStatus]
    cases f <;> simp [getFlag_setFlag_other]
  · rw [StatusValid] at h
    simp only [reservedBit_resetStatus, reservedBit_setFlag, h]

theorem resetStatus_resetStatus (sr : Byte) : resetStatus (resetStatus sr) = resetStatus sr := by
  refine status_ext (fun f => ?_) (by simp only [reservedBit_resetStatus])
  cases f <;> simp only [getFlag_resetStatus]

/-- A second reset finds every register as the first one left it. -/
theorem hostReset_hostReset (c : Config) (s : State) : (s.hostReset c).hostReset c = s.hostReset c := by
  simp only [State.hostReset, resetStatus_resetStatus]

theorem hostReset_valid {c : Config} {s : State} (h : s.Valid c) : (s.hostReset c).Valid c := by
  obtain ⟨-, hmem, hfb⟩ := h
  exact ⟨reservedBit_resetStatus s.sr, hmem, hfb⟩

/-- Settles O22: the registers by definition, and the two forms of the SR rule. -/
theorem hostResetValues : Obligations.HostResetValues := fun _ _ => ⟨rfl, resetStatus_eq_setFlag⟩

/-- Settles O23: a second reset changes nothing, and the flags are those of `resetStatus`. -/
theorem hostResetIsIdempotent : Obligations.HostResetIsIdempotent := fun s =>
  ⟨hostReset_hostReset _ s, rfl, rfl, fun f => by
    rw [State.hostReset_sr, getFlag_resetStatus]
    cases f <;> rfl, hostReset_valid⟩

end Sys2Proof.Machine
end

section
/-! PROOF of O29, O30 and O31. The commands of the video peripheral: the index check of plot decides between its two answers;
what plot and clear leave in the cells are the laws of a write and of filled contents. -/

namespace Sys2Proof.Machine

/-! The index (R358). -/

section plot
variable {c : Config} {v : Video}

theorem frameIndex_ok (h : v.x.toNat + v.y.toNat * c.rasterW < c.rasterW * c.rasterH) :
    frameIndex c v = .ok (v.x.toNat + v.y.toNat * c.rasterW) := if_pos h

theorem frameIndex_err (h : c.rasterW * c.rasterH ≤ v.x.toNat + v.y.toNat * c.rasterW) :
    frameIndex c v = .error .outOfBoundsCoordinate := if_neg (Nat.not_lt.2 h)

/-! Plot by what the index check answers (R351, R357). -/

theorem videoWrite_plot_ok {i : Nat} (b : Byte) (h : frameIndex c v = .ok i) :
    videoWrite c .plot b v = .ok { v with fb := v.fb.write i v.d1 } := by
  rw [videoWrite, videoPlot, h]

theorem videoWrite_plot_err {k : ErrorKind} (b : Byte) (h : frameIndex c v = .error k) :
    videoWrite c .plot b v = .error k := by
  rw [videoWrite, videoPlot, h]

theorem videoRead_plot_ok {i : Nat} (h : frameIndex c v = .ok i) : videoRead c .plot v = .ok (v.fb.read i) := by
  rw [videoRead, h]

theorem videoRead_plot_err {k : ErrorKind} (h : frameIndex c v = .error k) : videoRead c .plot v = .error k := by
  rw [videoRead, h]

end plot

theorem videoRead_not_plot {mode : VideoMode} (h : mode ≠ .plot) (c : Config) (v : Video) :
    videoRead c mode v = .error .unreadableMode := by
  cases mode with
  | plot => exact absurd rfl h
  | clear | setX | setY | setD1 | setD2 | setD3 | setD4 | text => rfl

/-- Settles O29: by mode. -/
theorem videoLatchCommands : Obligations.VideoLatchCommands := fun c v _ =>
  ⟨rfl, rfl, rfl, rfl, rfl, rfl, rfl, fun _ h => videoRead_not_plot h c v⟩

/-- Settles O30: by the answer of the index check; the cells are those of a write at the index. -/
theorem videoPlotRule : Obligations.VideoPlotRule := by
  intro c v b
  refine ⟨fun hin => ⟨fun hwf => ?write, videoRead_plot_ok (frameIndex_ok hin)⟩, fun hout =>
    ⟨videoWrite_plot_err b (frameIndex_err hout), videoRead_plot_err (frameIndex_err hout)⟩⟩
  case write =>
    refine ⟨_, videoWrite_plot_ok b (frameIndex_ok hin), ?_, fun k hk => ?_⟩
    · rw [Memory.read_write hwf, if_pos rfl]
    · rw [Memory.read_write hwf, if_neg hk]

/-- Settles O31: the cells are the filled contents. -/
theorem videoClearRule : Obligations.VideoClearRule := fun c v _ =>
  ⟨Memory.filled (frameCells c) v.d1, rfl, ⟨Memory.wf_filled _ _, Memory.below_filled _ _⟩, fun k hk => by
    rw [Memory.read_filled, frameCells, if_pos hk]⟩

end Sys2Proof.Machine
end

section
/-! PROOF of O60. Every step has a next state with a result (O11), so one turn of a loop is one of two: it ends on the state
after its step, or goes on from it (`stepLoop_turn`). Each clause about a loop is an induction on its bound over these two. -/

namespace Sys2Proof.Machine

/-! The end of a turn (R342). -/

theorem loopEnds_some_iff {stop : Mnemonic → Bool} {r : StepResult} :
    loopEnds stop (some r) = true ↔ ∀ m, r.mnemonic = some m → stop m = true := by
  cases h : r.mnemonic <;> simp [loopEnds, h]

theorem loopEnds_eq_false_iff {stop : Mnemonic → Bool} {r : StepResult} :
    loopEnds stop (some r) = false ↔ ∃ m, r.mnemonic = some m ∧ stop m = false := by
  cases h : r.mnemonic <;> simp [loopEnds, h]

/-- One turn of a loop: its step gives `t`, and the loop ends there or goes on. -/
theorem stepLoop_turn (stop : Mnemonic → Bool) (n : Nat) (s : State) :
    ∃ t r, step s = .next t ∧ t.result = some r ∧
      ((loopEnds stop (some r) = true ∧ stepLoop stop (n + 1) s = [t]) ∨
        (loopEnds stop (some r) = false ∧ stepLoop stop (n + 1) s = t :: stepLoop stop n t)) := by
  obtain ⟨t, r, hstep, hresult, -⟩ := everyStepReturnsAResult s
  refine ⟨t, r, hstep, hresult, ?_⟩
  rw [stepLoop_succ hstep, hresult]
  cases hends : loopEnds stop (some r) with
  | true => exact .inl ⟨rfl, rfl⟩
  | false => exact .inr ⟨rfl, rfl⟩

section loop
variable {stop : Mnemonic → Bool} {n : Nat} {s t u : State}

theorem stepLoop_length_le : (stepLoop stop n s).length ≤ n := by
  induction n generalizing s with
  | zero => exact Nat.le_refl 0
  | succ n ih =>
    obtain ⟨t, r, -, -, ⟨-, hloop⟩ | ⟨-, hloop⟩⟩ := stepLoop_turn stop n s <;> rw [hloop]
    · exact Nat.succ_le_succ (Nat.zero_le n)
    · exact Nat.succ_le_succ ih

theorem stepLoop_ne_nil (hn : 0 < n) : stepLoop stop n s ≠ [] := by
  obtain ⟨n, rfl⟩ := Nat.exists_eq_add_of_lt hn
  rw [Nat.zero_add]
  obtain ⟨t, r, -, -, ⟨-, hloop⟩ | ⟨-, hloop⟩⟩ := stepLoop_turn stop n s <;> rw [hloop] <;> exact List.cons_ne_nil _ _

/-- The first state of a loop is the one after a step from its start. -/
theorem step_of_stepLoop_head (h : (stepLoop stop n s)[0]? = some t) : step s = .next t := by
  cases n with
  | zero => cases h
  | succ n =>
    obtain ⟨t', r, hstep, -, hturn⟩ := stepLoop_turn stop n s
    have hhead : (stepLoop stop (n + 1) s)[0]? = some t' := by
      rcases hturn with ⟨-, hloop⟩ | ⟨-, hloop⟩ <;> rw [hloop] <;> rfl
    rw [hhead] at h
    cases h
    exact hstep

/-- Neighbours in a loop are a step apart, and the loop did not end between them. -/
theorem step_of_stepLoop_neighbours {k : Nat} (ht : (stepLoop stop n s)[k]? = some t)
    (hu : (stepLoop stop n s)[k + 1]? = some u) :
    step t = .next u ∧ ∃ r m, t.result = some r ∧ r.mnemonic = some m ∧ stop m = false := by
  induction n generalizing s k with
  | zero => cases ht
  | succ n ih =>
    obtain ⟨t', r, -, hresult, ⟨-, hloop⟩ | ⟨hgoes, hloop⟩⟩ := stepLoop_turn stop n s <;> rw [hloop] at ht hu
    · cases hu
    · cases k with
      | zero =>
        cases ht
        obtain ⟨m, hm, hstop⟩ := loopEnds_eq_false_iff.1 hgoes
        exact ⟨step_of_stepLoop_head hu, r, m, hresult, hm, hstop⟩
      | succ k => exact ih ht hu

/-- A loop shorter than its bound ended by itself. -/
theorem stepLoop_last_ends (hlength : (stepLoop stop n s).length < n)
    (hlast : (stepLoop stop n s).getLast? = some t) :
    ∃ r, t.result = some r ∧ ∀ m, r.mnemonic = some m → stop m = true := by
  induction n generalizing s with
  | zero => cases hlast
  | succ n ih =>
    obtain ⟨t', r, -, hresult, ⟨hends, hloop⟩ | ⟨-, hloop⟩⟩ := stepLoop_turn stop n s <;> rw [hloop] at hlength hlast
    · cases hlast
      exact ⟨r, hresult, loopEnds_some_iff.1 hends⟩
    · have hshorter : (stepLoop stop n t').length < n := Nat.lt_of_succ_lt_succ hlength
      have hnonempty : stepLoop stop n t' ≠ [] := stepLoop_ne_nil (by omega)
      refine ih hshorter ?_
      rwa [List.getLast?_cons_of_ne_nil hnonempty] at hlast

end loop

/-! The commands (R341). -/

/-- `ni` is one step: a loop whose every turn ends. -/
theorem commandOperations_ni {n : Nat} {s t : State} (h : step s = .next t) :
    commandOperations .ni n s = [.step t, .getCpuStatus (cpuStatus t)] := by
  have hends : loopEnds (fun _ => true) t.result = true := by
    unfold loopEnds
    split <;> rfl
  rw [commandOperations, stepLoop_succ h, if_pos hends]
  rfl

/-- Settles O60: the laws of a loop, and each command as its sequence of host operations. -/
theorem steppingLoopsEnd : Obligations.SteppingLoopsEnd :=
  ⟨fun _ _ _ => ⟨stepLoop_length_le, stepLoop_ne_nil, fun _ _ _ => step_of_stepLoop_neighbours,
      fun _ => step_of_stepLoop_head, fun _ => stepLoop_last_ends⟩,
    fun _ _ => ⟨rfl, fun _ => commandOperations_ni, stepsAlone_after _, stepsAlone_record _, stepsAlone_after _,
      stepsAlone_record _, stepsWithStatus_after _, stepsWithStatus_record _⟩⟩

end Sys2Proof.Machine
end

section
/-! PROOF of O19. Two states that differ in D2, D3, D4 and `result` alone run in step: every read of a step answers the same
in both, and every write leaves two such states again (`Alike`). One lemma per shared operation says so, and the two runs
end with one result, which the end of the step writes over the two it found (`AlikeEnds`). -/

namespace Sys2Proof.Machine

/-- The state with other values in the latches that no rule reads (R355) and in `result`. -/
def State.withUnread (x y z : Byte) (r : Option StepResult) (s : State) : State :=
  { s with video := { s.video with d2 := x, d3 := y, d4 := z }, result := r }

/-- The two states differ in D2, D3, D4 and `result` alone. -/
inductive Alike (s : State) : State → Prop where
  | intro (x y z : Byte) (r : Option StepResult) : Alike s (s.withUnread x y z r)

/-- The two parts answer the same and leave states that are alike. -/
inductive AlikeAccess {α : Type} : Access α → Access α → Prop where
  | ok (v : α) {s t : State} (h : Alike s t) : AlikeAccess (.ok v s) (.ok v t)
  | err (k : ErrorKind) {s t : State} (h : Alike s t) : AlikeAccess (.err k s) (.err k t)

/-- When the first outcome is a next state, so is the second, with the same result and differing in D2, D3, D4 alone. -/
def AlikeEnds (o p : Outcome) : Prop := ∀ t, o = .next t → ∃ x y z, p = .next (t.withUnread x y z t.result)

theorem alikeAccess_andThen {α β : Type} {p q : Access α} {rest : α → State → Access β} (hp : AlikeAccess p q)
    (hrest : ∀ v s t, Alike s t → AlikeAccess (rest v s) (rest v t)) : AlikeAccess (p.andThen rest) (q.andThen rest) := by
  cases hp with
  | ok v h => exact hrest v _ _ h
  | err k h => exact .err k h

section parts
variable {c : Config} {s t : State}

/-! Registers. -/

theorem Alike.pc (h : Alike s t) : t.pc = s.pc := by cases h; rfl
theorem Alike.sp (h : Alike s t) : t.sp = s.sp := by cases h; rfl
theorem Alike.sr (h : Alike s t) : t.sr = s.sr := by cases h; rfl
theorem Alike.ar (h : Alike s t) : t.ar = s.ar := by cases h; rfl
theorem Alike.run (h : Alike s t) : t.run = s.run := by cases h; rfl
theorem Alike.readReg16 (q : Reg16) (h : Alike s t) : t.readReg16 q = s.readReg16 q := by cases h; cases q <;> rfl
theorem Alike.readReg8 (q : Reg8) (h : Alike s t) : t.readReg8 q = s.readReg8 q := by cases h; cases q <;> rfl

theorem Alike.setPc (v : Word) (h : Alike s t) : Alike (s.setPc v) (t.setPc v) := by cases h; exact .intro ..
theorem Alike.setSp (v : Word) (h : Alike s t) : Alike (s.setSp v) (t.setSp v) := by cases h; exact .intro ..
theorem Alike.setSr (v : Byte) (h : Alike s t) : Alike (s.setSr v) (t.setSr v) := by cases h; exact .intro ..
theorem Alike.setIr (v : Byte) (h : Alike s t) : Alike (s.setIr v) (t.setIr v) := by cases h; exact .intro ..
theorem Alike.setEmh (v : Byte) (h : Alike s t) : Alike (s.setEmh v) (t.setEmh v) := by cases h; exact .intro ..
theorem Alike.setEml (v : Byte) (h : Alike s t) : Alike (s.setEml v) (t.setEml v) := by cases h; exact .intro ..
theorem Alike.setImh (v : Byte) (h : Alike s t) : Alike (s.setImh v) (t.setImh v) := by cases h; exact .intro ..
theorem Alike.setIml (v : Byte) (h : Alike s t) : Alike (s.setIml v) (t.setIml v) := by cases h; exact .intro ..
theorem Alike.setAr (v : Word) (h : Alike s t) : Alike (s.setAr v) (t.setAr v) := by cases h; exact .intro ..
theorem Alike.setRun (v : RunState) (h : Alike s t) : Alike (s.setRun v) (t.setRun v) := by cases h; exact .intro ..
theorem Alike.setCur (v : Option Mnemonic) (h : Alike s t) : Alike (s.setCur v) (t.setCur v) := by
  cases h; exact .intro ..

theorem Alike.writeReg16 (q : Reg16) (v : Word) (h : Alike s t) : Alike (s.writeReg16 q v) (t.writeReg16 q v) := by
  cases h; cases q <;> exact .intro ..

theorem Alike.writeReg8 (q : Reg8) (v : Byte) (h : Alike s t) : Alike (s.writeReg8 q v) (t.writeReg8 q v) := by
  cases h; cases q <;> exact .intro ..

theorem Alike.latchAddress (w : Word) (h : Alike s t) : Alike (latchAddress w s) (latchAddress w t) :=
  (h.setEmh _).setEml _

/-! The peripheral and the bus (R60, R61). -/

/-- No read of the peripheral sees D2, D3 or D4: plot finds its cell by X and Y (R357). -/
theorem busRead_withUnread (x y z : Byte) (r : Option StepResult) (a : Word) :
    busRead c (s.withUnread x y z r) a = busRead c s a := rfl

/-- A command of the peripheral with other values in D2, D3, D4 does the same to the rest of it, or fails alike. -/
theorem videoWrite_unread (mode : VideoMode) (b : Byte) (v : Video) (x y z : Byte) :
    (∃ w x' y' z', videoWrite c mode b v = .ok w ∧
      videoWrite c mode b { v with d2 := x, d3 := y, d4 := z } = .ok { w with d2 := x', d3 := y', d4 := z' }) ∨
    ∃ k, videoWrite c mode b v = .error k ∧ videoWrite c mode b { v with d2 := x, d3 := y, d4 := z } = .error k := by
  cases mode with
  | plot =>
    have hindex : frameIndex c { v with d2 := x, d3 := y, d4 := z } = frameIndex c v := rfl
    cases hi : frameIndex c v with
    | ok i =>
      exact .inl ⟨_, x, y, z, by rw [videoWrite, videoPlot, hi], by rw [videoWrite, videoPlot, hindex, hi]⟩
    | error k => exact .inr ⟨k, by rw [videoWrite, videoPlot, hi], by rw [videoWrite, videoPlot, hindex, hi]⟩
  | clear | setX | setY | setD1 => exact .inl ⟨_, x, y, z, rfl, rfl⟩
  | setD2 => exact .inl ⟨_, b, y, z, rfl, rfl⟩
  | setD3 => exact .inl ⟨_, x, b, z, rfl, rfl⟩
  | setD4 => exact .inl ⟨_, x, y, b, rfl, rfl⟩
  | text => exact .inr ⟨_, rfl, rfl⟩

theorem readByte_alike (a : Word) (h : Alike s t) : AlikeAccess (readByte c a s) (readByte c a t) := by
  obtain ⟨x, y, z, r⟩ := h
  rcases readByte_cases c a s with ⟨b, hb, hs⟩ | ⟨k, hk, hs⟩
  · rw [hs, readByte_ok ((busRead_withUnread x y z r a).trans hb)]
    exact .ok b (.intro x y z r)
  · rw [hs, readByte_err ((busRead_withUnread x y z r a).trans hk)]
    exact .err k (.intro x y z r)

theorem readWord_alike (a : Word) (h : Alike s t) : AlikeAccess (readWord c a s) (readWord c a t) :=
  alikeAccess_andThen (readByte_alike a h) fun _ _ _ h =>
    alikeAccess_andThen (readByte_alike _ h) fun _ _ _ h => .ok _ h

theorem writeByte_alike (a : Word) (b : Byte) (h : Alike s t) :
    AlikeAccess (writeByte c a b s) (writeByte c a b t) := by
  obtain ⟨x, y, z, r⟩ := h
  unfold writeByte busWrite
  cases regionOf c a.toNat with
  | rom | charMap => exact .err _ (.intro x y z r)
  | cartridge | ram => exact .ok () (.intro x y z r)
  | video mode =>
    dsimp only [State.withUnread]
    rcases videoWrite_unread (c := c) mode b s.video x y z with ⟨w, x', y', z', hs, ht⟩ | ⟨k, hs, ht⟩
    · rw [hs, ht]
      exact .ok () (.intro x' y' z' r)
    · rw [hs, ht]
      exact .err k (.intro x y z r)

theorem writeWord_alike (a v : Word) (h : Alike s t) : AlikeAccess (writeWord c a v s) (writeWord c a v t) :=
  alikeAccess_andThen (writeByte_alike a _ h) fun _ _ _ h => writeByte_alike _ _ h

/-! The stack (R241). -/

theorem push8_alike (b : Byte) (h : Alike s t) : AlikeAccess (push8 c b s) (push8 c b t) := by
  unfold push8
  rw [h.sp]
  exact alikeAccess_andThen (writeByte_alike _ b h) fun _ _ _ h => by
    rw [h.sp]
    exact .ok () (h.setSp _)

theorem push16_alike (v : Word) (h : Alike s t) : AlikeAccess (push16 c v s) (push16 c v t) :=
  alikeAccess_andThen (push8_alike _ h) fun _ _ _ h => push8_alike _ h

theorem pop8_alike (h : Alike s t) : AlikeAccess (pop8 c s) (pop8 c t) := by
  unfold pop8
  rw [h.sp]
  exact alikeAccess_andThen (readByte_alike _ h) fun b _ _ h => by
    rw [h.sp]
    exact .ok b (h.setSp _)

theorem pop16_alike (h : Alike s t) : AlikeAccess (pop16 c s) (pop16 c t) := by
  unfold pop16
  rw [h.sp]
  refine alikeAccess_andThen (readByte_alike _ h) fun _ _ _ h => ?_
  rw [h.sp]
  refine alikeAccess_andThen (readByte_alike _ h) fun _ _ _ h => ?_
  rw [h.sp]
  exact .ok _ (h.setSp _)

/-! Operands. -/

theorem resolve_alike (mode : MemMode) (w : Word) (h : Alike s t) :
    AlikeAccess (resolve c mode w s) (resolve c mode w t) := by
  cases mode with
  | abs => exact .ok () ((h.latchAddress w).setAr w)
  | absi | absj => cases h; exact .ok () (.intro ..)
  | ind => exact alikeAccess_andThen (readWord_alike w (h.latchAddress w)) fun p _ _ h => .ok () (h.setAr p)

theorem operand8_alike (src : Src8) (h : Alike s t) : AlikeAccess (operand8 c src s) (operand8 c src t) := by
  cases src with
  | imm b => exact .ok b (h.setIml b)
  | mem mode w =>
    refine alikeAccess_andThen (resolve_alike mode w h) fun _ _ _ h => ?_
    rw [h.ar]
    exact readByte_alike _ h

theorem operand16_alike (src : Src16) (h : Alike s t) : AlikeAccess (operand16 c src s) (operand16 c src t) := by
  cases src with
  | imm w => exact .ok w ((h.setImh _).setIml _)
  | mem mode w =>
    refine alikeAccess_andThen (resolve_alike mode w h) fun _ _ _ h => ?_
    rw [h.ar]
    exact readWord_alike _ h

/-! Ends. -/

theorem alikeEnds_setResult (r : Option StepResult) (h : Alike s t) :
    AlikeEnds (.next (s.setResult r)) (.next (t.setResult r)) := by
  obtain ⟨x, y, z, _⟩ := h
  intro u hu
  cases hu
  exact ⟨x, y, z, rfl⟩

theorem finish_alike (m : Mnemonic) {p q : Access Unit} (h : AlikeAccess p q) : AlikeEnds (finish m p) (finish m q) := by
  cases h with
  | ok v h => exact alikeEnds_setResult _ h
  | err k h => exact alikeEnds_setResult _ h

theorem takeFault_alike (k : ErrorKind) (h : Alike s t) : AlikeEnds (takeFault k s) (takeFault k t) :=
  alikeEnds_setResult _ (h.setRun _)

theorem privileged_alike {body : State → Outcome} (hbody : AlikeEnds (body s) (body t)) (h : Alike s t) :
    AlikeEnds (privileged s body) (privileged t body) := by
  unfold privileged
  rw [h.sr]
  split
  · exact hbody
  · exact takeFault_alike _ h

end parts

/-! The meanings. -/

section meanings
variable {c : Config} {m : Mnemonic} {s t : State}

theorem load16_alike {r : Reg16} (src : Src16) (h : Alike s t) : AlikeEnds (load16 c m r src s) (load16 c m r src t) :=
  finish_alike m (alikeAccess_andThen (operand16_alike src h) fun v _ _ h => .ok () (h.writeReg16 r v))

theorem load8_alike {r : Reg8} (src : Src8) (h : Alike s t) : AlikeEnds (load8 c m r src s) (load8 c m r src t) :=
  finish_alike m (alikeAccess_andThen (operand8_alike src h) fun v _ _ h => .ok () (h.writeReg8 r v))

theorem store16_alike {r : Reg16} (mode : MemMode) (w : Word) (h : Alike s t) :
    AlikeEnds (store16 c m r mode w s) (store16 c m r mode w t) :=
  finish_alike m (alikeAccess_andThen (resolve_alike mode w h) fun _ _ _ h => by
    rw [h.readReg16, h.ar]
    exact writeWord_alike _ _ h)

theorem store8_alike {r : Reg8} (mode : MemMode) (w : Word) (h : Alike s t) :
    AlikeEnds (store8 c m r mode w s) (store8 c m r mode w t) :=
  finish_alike m (alikeAccess_andThen (resolve_alike mode w h) fun _ _ _ h => by
    rw [h.readReg8, h.ar]
    exact writeByte_alike _ _ h)

theorem transfer_alike {src dst : Reg16} (h : Alike s t) : AlikeEnds (transfer m src dst s) (transfer m src dst t) := by
  unfold transfer
  rw [h.readReg16]
  exact finish_alike m (.ok () (h.writeReg16 dst _))

theorem transferToSr_alike (h : Alike s t) : AlikeEnds (transferToSr m s) (transferToSr m t) := by
  unfold transferToSr
  rw [h.readReg8]
  exact finish_alike m (.ok () (h.setSr _))

theorem transferFromSr_alike (h : Alike s t) : AlikeEnds (transferFromSr m s) (transferFromSr m t) := by
  unfold transferFromSr
  rw [h.sr]
  exact finish_alike m (.ok () (h.writeReg8 .al _))

theorem alu16_alike {op : AluOp} {r : Reg16} (src : Src16) (h : Alike s t) :
    AlikeEnds (alu16 c m op r src s) (alu16 c m op r src t) :=
  finish_alike m (alikeAccess_andThen (operand16_alike src h) fun v _ _ h => by
    rw [h.readReg16, h.sr]
    exact .ok () ((h.writeReg16 r _).setSr _))

theorem alu8_alike {op : AluOp} {r : Reg8} (src : Src8) (h : Alike s t) :
    AlikeEnds (alu8 c m op r src s) (alu8 c m op r src t) :=
  finish_alike m (alikeAccess_andThen (operand8_alike src h) fun v _ _ h => by
    rw [h.readReg8, h.sr]
    exact .ok () ((h.writeReg8 r _).setSr _))

theorem indexStep_alike {op : AluOp} {r : Reg16} (h : Alike s t) : AlikeEnds (indexStep m op r s) (indexStep m op r t) := by
  unfold indexStep
  rw [h.readReg16, h.sr]
  exact finish_alike m (.ok () ((h.writeReg16 r _).setSr _))

theorem push_alike {r : Reg16} (h : Alike s t) : AlikeEnds (push c m r s) (push c m r t) := by
  unfold push
  rw [h.readReg16]
  exact finish_alike m (push16_alike _ h)

theorem pushStatus_alike (h : Alike s t) : AlikeEnds (pushStatus c m s) (pushStatus c m t) := by
  unfold pushStatus
  rw [h.sr]
  exact finish_alike m (push8_alike _ h)

theorem pop_alike {r : Reg16} (h : Alike s t) : AlikeEnds (pop c m r s) (pop c m r t) :=
  finish_alike m (alikeAccess_andThen (pop16_alike h) fun v _ _ h => .ok () (h.writeReg16 r v))

theorem popStatus_alike (h : Alike s t) : AlikeEnds (popStatus c m s) (popStatus c m t) :=
  finish_alike m (alikeAccess_andThen (pop8_alike h) fun _ _ _ h => .ok () (h.setSr _))

theorem jump_alike {cond : Cond} (mode : MemMode) (w : Word) (h : Alike s t) :
    AlikeEnds (jump c m cond mode w s) (jump c m cond mode w t) :=
  finish_alike m (alikeAccess_andThen (resolve_alike mode w h) fun _ _ _ h => by
    rw [h.sr, h.ar]
    split
    · exact .ok () (h.setPc _)
    · exact .ok () h)

theorem callTo_alike (mode : MemMode) (w : Word) (h : Alike s t) :
    AlikeEnds (callTo c m mode w s) (callTo c m mode w t) :=
  finish_alike m (alikeAccess_andThen (resolve_alike mode w h) fun _ _ _ h => by
    rw [h.pc]
    refine alikeAccess_andThen (push16_alike _ h) fun _ _ _ h => ?_
    rw [h.ar]
    exact .ok () (h.setPc _))

theorem returnFrom_alike (h : Alike s t) : AlikeEnds (returnFrom c m s) (returnFrom c m t) :=
  finish_alike m (alikeAccess_andThen (pop16_alike h) fun v _ _ h => .ok () (h.setPc v))

theorem writeFlag_alike {f : Flag} {v : Bool} (h : Alike s t) : AlikeEnds (writeFlag m f v s) (writeFlag m f v t) := by
  unfold writeFlag
  rw [h.sr]
  exact finish_alike m (.ok () (h.setSr _))

theorem noOperation_alike (h : Alike s t) : AlikeEnds (noOperation m s) (noOperation m t) := finish_alike m (.ok () h)

theorem haltCore_alike (h : Alike s t) : AlikeEnds (haltCore m s) (haltCore m t) :=
  finish_alike m (.ok () (h.setRun _))

end meanings

/-- Each instruction by the shared meaning it is made of. -/
theorem exec_alike (i : Instr) {s t : State} (h : Alike s t) : AlikeEnds (exec i s) (exec i t) := by
  cases i with
  | nop => exact noOperation_alike h
  | halt => exact privileged_alike (haltCore_alike h) h
  | clc | sec | clo | cld | sed => exact writeFlag_alike h
  | cli | sei | cls => exact privileged_alike (writeFlag_alike h) h
  | ldaImm2 w | ldbImm2 w | ldiImm2 w | ldjImm2 w | ldspImm2 w => exact load16_alike (c := Config.reference) (.imm w) h
  | ldaAbs | ldaAbsi | ldaAbsj | ldaInd | ldbAbs | ldiAbs | ldjAbs | ldspAbs => exact load16_alike _ h
  | ldahImm1 b | ldalImm1 b | ldbhImm1 b | ldblImm1 b => exact load8_alike (c := Config.reference) (.imm b) h
  | ldahAbs | ldalAbs | ldalAbsi | ldalAbsj | ldalInd | ldbhAbs | ldblAbs => exact load8_alike _ h
  | staAbs | staAbsi | staAbsj | staInd | stbAbs | stiAbs | stjAbs => exact store16_alike _ _ h
  | stahAbs | stalAbs | stalAbsi | stalAbsj | stalInd | stbhAbs | stblAbs => exact store8_alike _ _ h
  | tab | tba | tai | tia | taj | tja | tad | tda | tasp | tspa => exact transfer_alike h
  | tasr => exact privileged_alike (transferToSr_alike h) h
  | tsra => exact transferFromSr_alike h
  | addImm2 w | subImm2 w | andImm2 w | orImm2 w | addbImm2 w | subbImm2 w | andbImm2 w | orbImm2 w =>
    exact alu16_alike (c := Config.reference) (.imm w) h
  | addAbs | subAbs | andAbs | orAbs | addbAbs | subbAbs | andbAbs | orbAbs => exact alu16_alike _ h
  | addhImm1 b | addlImm1 b | subhImm1 b | sublImm1 b | andlImm1 b | orlImm1 b | addbhImm1 b | addblImm1 b | subbhImm1 b
  | subblImm1 b | andblImm1 b | orblImm1 b => exact alu8_alike (c := Config.reference) (.imm b) h
  | addhAbs | addlAbs | subhAbs | sublAbs | andlAbs | orlAbs | addbhAbs | addblAbs | subbhAbs | subblAbs | andblAbs
  | orblAbs => exact alu8_alike _ h
  | ini | dei | inj | dej => exact indexStep_alike h
  | psha | pshb => exact push_alike h
  | popa | popb => exact pop_alike h
  | pshsr => exact pushStatus_alike h
  | popsr => exact privileged_alike (popStatus_alike h) h
  | jmpAbs w | jeqAbs w | jneAbs w | jcsAbs w | jccAbs w | jnsAbs w | jncAbs w | josAbs w | jocAbs w | jltAbs w
  | jgeAbs w => exact jump_alike (c := Config.reference) .abs w h
  | jmpInd w => exact jump_alike .ind w h
  | callAbs => exact callTo_alike _ _ h
  | ret => exact returnFrom_alike h

/-! The fetch and the cycle (R112). -/

theorem fetchByte_alike {c : Config} {s t : State} (h : Alike s t) : AlikeAccess (fetchByte c s) (fetchByte c t) := by
  unfold fetchByte
  rw [h.pc]
  exact alikeAccess_andThen (readByte_alike _ h) fun b _ _ h => by
    rw [h.pc]
    exact .ok b (h.setPc _)

theorem fetchOperand_alike {c : Config} {s t : State} (mode : AddrMode) (h : Alike s t) :
    AlikeAccess (fetchOperand c mode s) (fetchOperand c mode t) := by
  cases mode with
  | imp => exact .ok _ h
  | imm1 => exact alikeAccess_andThen (fetchByte_alike h) fun b _ _ h => .ok _ (h.setIml b)
  | imm2 =>
    exact alikeAccess_andThen (fetchByte_alike h) fun b _ _ h =>
      alikeAccess_andThen (fetchByte_alike (h.setImh b)) fun l _ _ h => .ok _ (h.setIml l)
  | abs | absi | absj | ind =>
    exact alikeAccess_andThen (fetchByte_alike h) fun b _ _ h =>
      alikeAccess_andThen (fetchByte_alike (h.setEmh b)) fun l _ _ h => .ok _ (h.setEml l)

/-- Two cycles over states that are alike take the same way: stopped, a fault of the fetch, the lookup or the privilege
check, or the operation found, run in states that are alike. -/
theorem cycle_alike {c : Config} {find : Byte → Option (Descriptor × (Word → State → Outcome))} {s t : State}
    (hop : ∀ op d run w u v, find op = some (d, run) → Alike u v → AlikeEnds (run w u) (run w v)) (h : Alike s t) :
    AlikeEnds (cycle c find s) (cycle c find t) := by
  unfold cycle
  rw [h.run]
  cases s.run with
  | halted | faulted => exact alikeEnds_setResult _ h
  | running =>
    have hfetch := fetchByte_alike (c := c) h
    generalize fetchByte c s = p, fetchByte c t = q at hfetch ⊢
    cases hfetch with
    | err k h => exact takeFault_alike k h
    | @ok op u v h =>
      dsimp only
      cases hd : find op with
      | none => exact takeFault_alike _ (h.setIr op)
      | some found =>
        obtain ⟨d, run⟩ := found
        have hfetched := (h.setIr op).setCur (some d.mnemonic)
        dsimp only
        rw [hfetched.sr]
        split
        · exact takeFault_alike _ hfetched
        · have hoperand := fetchOperand_alike (c := c) d.mode hfetched
          generalize fetchOperand c d.mode ((u.setIr op).setCur (some d.mnemonic)) = p,
            fetchOperand c d.mode ((v.setIr op).setCur (some d.mnemonic)) = q at hoperand ⊢
          cases hoperand with
          | err k h => exact takeFault_alike k h
          | ok w h => exact hop op d run w _ _ hd h

theorem step_alike {s t : State} (h : Alike s t) : AlikeEnds (step s) (step t) := by
  refine cycle_alike (fun op d run w u v hfind h => ?_) h
  obtain ⟨e, -, he⟩ := Option.map_eq_some_iff.1 hfind
  cases he
  exact exec_alike _ h

/-- Settles O19: the two states are alike, so their steps end alike. -/
theorem unreadLatchesAreInvisible : Obligations.UnreadLatchesAreInvisible := fun _ t x y z r ht =>
  step_alike (.intro x y z r) t ht

end Sys2Proof.Machine
end
